-- ==== Sys2Proof/Word.lean ====
section
/-! DEFINITION. The word types of GF256U (00_scope.md R5, R8): the host bus word, the 16-bit counts and lengths, and
the field element. -/

namespace Sys2Proof

/-- A host bus word, `XLEN` = 32 bits (R5). -/
abbrev Word := BitVec 32

/-- A share count or a share length: `NSH`, `SLEN[i]`, `RLEN` are 16 bits unsigned (10_state.md R20). -/
abbrev Half := BitVec 16

/-- A field element: one byte, every bit pattern valid (R8). -/
abbrev Elem := BitVec 8

end Sys2Proof
end

