-- ==== Sys2Proof/Syntax.lean ====
section
/-! DEFINITION. The twelve commands of GF256U (30_encoding.md R71), one constructor per row of
spec/opcode_table.json. A command carries no register number, no immediate and no mode bit (R70, R73), so no
constructor has an argument. -/

namespace Sys2Proof

/-- The commands, in the order of R71. -/
inductive Instr
  | add | sub | mul | div | neg | pos | log | exp | pow | tst | cmp | interp
  deriving DecidableEq, Repr

end Sys2Proof
end

