-- ==== Sys2Proof/WellFormed.lean ====
section
/-! DEFINITION. What makes a command, and a command word, well-formed (30_encoding.md R70, R75). -/

namespace Sys2Proof

/-- A command has no operand field (R70, R73), so there is nothing in the syntax that could be ill-formed: each of
the twelve is well-formed as it stands. The checks that can refuse are on the command WORD, below. -/
def Instr.wellFormed : Instr → Bool
  | .add => true
  | .sub => true
  | .mul => true
  | .div => true
  | .neg => true
  | .pos => true
  | .log => true
  | .exp => true
  | .pow => true
  | .tst => true
  | .cmp => true
  | .interp => true

/-- First check on a command word: the field `ZERO`, bits 31:8, "must be all zero" (R70). -/
def zeroFieldClear (w : Word) : Bool := w.toNat < 256

/-- Second check on a command word: its bits 7:0 are an opcode of R71, 0x01 to 0x0B or 0x10. Opcodes 0x00,
0x0C to 0x0F and 0x11 to 0xFF are illegal (R75). -/
def opcodeAssigned (w : Word) : Bool :=
  let opc := w.toNat % 256
  (1 ≤ opc && opc ≤ 11) || opc == 16

/-- A command word is legal iff both checks pass (R75). -/
def commandWordWellFormed (w : Word) : Bool := zeroFieldClear w && opcodeAssigned w

end Sys2Proof
end

