-- ==== Sys2Proof/Decode.lean ====
section
/-! DEFINITION. The decoder of command words, total on every 32-bit word and rejecting by name, and the encoder
(30_encoding.md R70, R71, R75). A command word is only ever the data of one 32-bit host write, so a word is the unit
of decoding and no byte order arises (20_memory.md R61). -/

namespace Sys2Proof

/-- Why a command word is illegal (R75). Both reasons end in the one failure IllegalCommand. -/
inductive IllegalWord
  /-- some bit of `ZERO`, bits 31:8, is set -/
  | zeroFieldSet
  /-- `ZERO` is clear and bits 7:0 are no opcode of R71 -/
  | opcodeUnassigned
  deriving DecidableEq, Repr

/-- A row of the opcode map of R71: a word `w` selects the command iff `w and mask = match`. -/
structure OpcodeRow where
  matchWord : Word
  mask : Word
  command : Instr
  deriving DecidableEq, Repr

/-- The opcode map of R71, row by row. The mask is all ones in every row because of the field `ZERO`. -/
def opcodeTable : List OpcodeRow :=
  [ ⟨0x00000001, 0xFFFFFFFF, .add⟩,
    ⟨0x00000002, 0xFFFFFFFF, .sub⟩,
    ⟨0x00000003, 0xFFFFFFFF, .mul⟩,
    ⟨0x00000004, 0xFFFFFFFF, .div⟩,
    ⟨0x00000005, 0xFFFFFFFF, .neg⟩,
    ⟨0x00000006, 0xFFFFFFFF, .pos⟩,
    ⟨0x00000007, 0xFFFFFFFF, .log⟩,
    ⟨0x00000008, 0xFFFFFFFF, .exp⟩,
    ⟨0x00000009, 0xFFFFFFFF, .pow⟩,
    ⟨0x0000000A, 0xFFFFFFFF, .tst⟩,
    ⟨0x0000000B, 0xFFFFFFFF, .cmp⟩,
    ⟨0x00000010, 0xFFFFFFFF, .interp⟩ ]

/-- Does the word select this row (R71)? -/
def OpcodeRow.selectedBy (row : OpcodeRow) (w : Word) : Bool := w &&& row.mask == row.matchWord

/-- The field `ZERO`, bits 31:8 of a command word (R70). -/
def zeroField (w : Word) : BitVec 24 := w.extractLsb' 8 24

/-- The command a word selects, or the reason it is illegal (R71, R75). -/
def decode (w : Word) : Except IllegalWord Instr :=
  match opcodeTable.find? (fun row => row.selectedBy w) with
  | some row => .ok row.command
  | none => if zeroField w = 0 then .error .opcodeUnassigned else .error .zeroFieldSet

/-- The decoder on a row of spec/opcode_table.json: the one command word of `nbits` bits. A command is at most 32
bits, so a longer word is no command. -/
def decodeTableWord (nbits w : Nat) : Option Instr :=
  if nbits ≤ 32 then
    match decode (BitVec.ofNat 32 (w % 2 ^ nbits)) with
    | .ok i => some i
    | .error _ => none
  else none

/-- The opcode of a command, `OPC` of R71. -/
def opcode : Instr → BitVec 8
  | .add => 0x01
  | .sub => 0x02
  | .mul => 0x03
  | .div => 0x04
  | .neg => 0x05
  | .pos => 0x06
  | .log => 0x07
  | .exp => 0x08
  | .pow => 0x09
  | .tst => 0x0A
  | .cmp => 0x0B
  | .interp => 0x10

/-- The command word of a command: the opcode in bits 7:0 under an all-zero field `ZERO` (R70). -/
def encode (i : Instr) : Word := (0#24 ++ opcode i : BitVec 32)

end Sys2Proof
end

