-- ==== Sys2Proof/Config.lean ====
section
/-! DEFINITION. What the spec leaves open: free values, constants with no body, so that no proof can see what they
are; and the reference values of the two open parameters. The parameters themselves (`N_MAX`, `M_MAX` in `CAP`, and
`BASE`) are fields of State that no step writes (00_scope.md R5), so a statement holds for every value of them. -/

namespace Sys2Proof.Config

/-- What the byte of the share buffer or of `RY` at a host offset holds after the `epoch`-th reset until something
writes it: "each holds some fixed but unknown value until the host writes it" (10_state.md R40,
93_implementation_defined.md U2, U3). DESIGN CHOICE of the spec's "acceptable alternative", log entry 2. -/
opaque powerOn (epoch offset : Nat) : BitVec 8

/-- The free choice of 93_implementation_defined.md U1, one fresh value for each ambiguous short-circuit of INTERP:
the `n`-th one returns the matching share at position `freeChoice n` modulo the number of matching shares. Log
entry 3. -/
opaque freeChoice (n : Nat) : Nat

/-- "`LOGF(0)` does not exist" (93_implementation_defined.md part 2). No rule asks for it (43_interpolation.md R161);
the total function `logf` has this opaque value there, so that no proof can lean on one. Log entry 9. -/
opaque logOfZero : Nat

/-- A table index outside [0,255) does not exist (20_memory.md R67). No rule asks for one. Log entry 9. -/
opaque beyondTable (position : Nat) : BitVec 8

/-- The reference value of `N_MAX` (00_scope.md R5). DESIGN CHOICE, log entry 1. -/
def referenceNMax : Nat := 256

/-- The reference value of `M_MAX` (00_scope.md R5). DESIGN CHOICE, log entry 1. -/
def referenceMMax : Nat := 256

/-- The bus address of offset 0 at reset. The spec leaves `BASE` to the platform. DESIGN CHOICE, log entry 1. -/
def defaultBase : Nat := 0

end Sys2Proof.Config
end

