-- ==== Sys2Proof/Machine/State.lean ====
section
/-! DEFINITION. The whole state of GF256U (10_state.md R20) with the host agent that drives it (R38, 30_encoding.md
R82), as plain data, and the state after reset (R40). -/

namespace Sys2Proof.Machine

/-- The four condition bits of `FLAGS` (10_state.md R25). Its word is packed in Machine/Flags.lean. -/
structure Flags where
  z : Bool
  eq : Bool
  lt : Bool
  gt : Bool
  deriving DecidableEq, Repr

/-- The two fields of `STATUS` (10_state.md R28); all other bits read as zero. -/
structure Status where
  code : BitVec 4
  estky : Bool
  deriving DecidableEq, Repr

/-- The eight failure kinds of a command, in the order of their codes 1 to 8 (60_exceptions.md R200). A failure is a
NEXT state of the machine (R203), never a stop. -/
inductive Failure
  | divideByZero | logOfZero | domainError | tooFewShares | mismatchedShareWidth | duplicateXValue
  | illegalCommand | capacityExceeded
  deriving DecidableEq, Repr

/-- The mapped locations of the host offset space, under the spec's names (20_memory.md R51 to R53). -/
inductive Location
  | cmd | status | a | b | e | r | l | flags | dx | nsh | cap
  | rx | rlen | ry (j : Nat)
  | sx (i : Nat) | slen (i : Nat) | sy (i j : Nat)
  deriving DecidableEq, Repr

/-- What can happen at the host port: a bus write or read of `size` bytes at a bus address (20_memory.md R54, R55,
R58), or a reset by the platform (70_reset_and_hazards.md R230). `W(off, data)` of 30_encoding.md R82 is
`write (BASE + off) 4 data` and `R(off)` is `read (BASE + off) 4`. The data of a write whose size is not 4 is never
used: it gets a bus error. -/
inductive HostEvent
  | write (addr size : Nat) (data : Word)
  | read (addr size : Nat)
  | reset
  deriving DecidableEq, Repr

/-- The host agent: its finite list of events, its index into the list, and the values its reads have returned,
oldest first (30_encoding.md R82, 10_state.md R38). -/
structure HostAgent where
  program : List HostEvent
  index : Nat
  returned : List Word
  deriving DecidableEq, Repr

/-- The share buffer and the result y-values: byte cells keyed by host offset, offsets strictly rising, only bytes
written since reset listed. An element is the byte at its word's offset; a length is two bytes, the low one first
(log entry 8). -/
abbrev Memory := List Host.Cell

/-- The state of the machine. `A` to `RLEN` are the registers of R20; `cap` is the constant register `CAP`; `mem`
holds `SX`, `SLEN`, `SY` and `RY`; `base` is the platform's `BASE`; `host` is the host agent; `epoch` and `draws` are
the model's own counters for the free values of Config (log entries 2 and 3). -/
structure State where
  a : Elem
  b : Elem
  e : Word
  r : Elem
  l : BitVec 8
  flags : Flags
  dx : Elem
  nsh : Half
  status : Status
  cap : Word
  rx : Elem
  rlen : Half
  mem : Memory
  base : Nat
  host : HostAgent
  epoch : Nat
  draws : Nat
  deriving DecidableEq, Repr

/-- Why a step stops. A bus error is an event of the host's bus, not a failure of the unit (60_exceptions.md R201): no
state of the unit changes, the data of a read is unspecified, and "a model should treat a host program that makes
such an access as refused" (20_memory.md R58, R59, 93_implementation_defined.md U4). -/
inductive Fault
  /-- raised by a host access whose size is not 4 bytes (R58); safe, the machine stops where the host's bus goes on -/
  | busErrorSize
  /-- raised by a 4-byte host access at an offset that is no multiple of 4 (R58); safe -/
  | busErrorMisaligned
  /-- raised by an aligned word access at an offset R51 to R53 leave unmapped (R59); safe -/
  | busErrorUnmapped
  deriving DecidableEq, Repr

/-- What the model does not give a meaning. -/
inductive Refusal
  /-- raised by an arm of `exec` whose command has no meaning yet (none is left); safe -/
  | notModelled (mnemonic : String)
  /-- raised by a host access at a bus address below `BASE`, which does not reach the unit: what lies there is "left
  to the platform" (20_memory.md R53); safe -/
  | outsideUnit
  deriving DecidableEq, Repr

/-- `CAP` with the reference parameters: `CAP[15:0] = N_MAX`, `CAP[31:16] = M_MAX` (10_state.md R29). -/
def referenceCap : Word :=
  (BitVec.ofNat 16 Config.referenceMMax ++ BitVec.ofNat 16 Config.referenceNMax : BitVec 32)

/-- The state after reset (10_state.md R40, 70_reset_and_hazards.md R230): every register 0, no byte of the share
buffer or of `RY` written. The host's list is empty: a program is loaded from outside (log entry 4). -/
def State.reset : State where
  a := 0x00
  b := 0x00
  e := 0
  r := 0x00
  l := 0
  flags := ⟨false, false, false, false⟩
  dx := 0x00
  nsh := 0
  status := ⟨0, false⟩
  cap := referenceCap
  rx := 0x00
  rlen := 0
  mem := []
  base := Config.defaultBase
  host := ⟨[], 0, []⟩
  epoch := 0
  draws := 0

end Sys2Proof.Machine
end

