-- ==== Sys2Proof/Machine/Ops.lean ====
section
/-! DEFINITION. The named operations over memory and registers: the byte memory of the share buffer and of `RY`, the
host offsets of its words, one named update for each register, success, and taking a failure (60_exceptions.md R203)
with the clearing of its sticky flag beside it (R206). -/

namespace Sys2Proof.Machine

/-- The outcome of a command or of a step. -/
abbrev Result := Host.Outcome State Fault Refusal

/-! ### The byte memory -/

/-- The byte written at an offset since reset, if any. -/
def memGet : Memory → Nat → Option (BitVec 8)
  | [], _ => none
  | (a, v) :: m, off => if a = off then some v else memGet m off

/-- Write one byte, keeping the offsets strictly rising. -/
def memPut : Memory → Nat → BitVec 8 → Memory
  | [], off, v => [(off, v)]
  | (a, w) :: m, off, v =>
    if off < a then (off, v) :: (a, w) :: m
    else if off = a then (off, v) :: m
    else (a, w) :: memPut m off v

/-- Write elements to consecutive words, one element a word (20_memory.md R53), from the word at `off` on. -/
def memPutElems : Memory → Nat → List Elem → Memory
  | m, _, [] => m
  | m, off, y :: ys => memPutElems (memPut m off y) (off + 4) ys

/-- Canonical form: offsets strictly rising. An unlisted offset has not been written since reset, and no entry says
that, so equal memories are equal lists (log entry 8). -/
def Memory.wf (m : Memory) : Bool := decide (m.Pairwise fun p q => p.1 < q.1)

/-! ### Host offsets of the words in memory (20_memory.md R52, R53) -/

/-- The offset of `RY[0]` (R52). -/
def ryBase : Nat := 0x1008

/-- The offset of `RY[j]` (R52). -/
def ryOffset (j : Nat) : Nat := ryBase + 4 * j

/-- `SLOT(i)` (R53). -/
def slotOffset (i : Nat) : Nat := 0x10000 + 0x1000 * i

/-- The offset of `SX[i]` (R53). -/
def sxOffset (i : Nat) : Nat := slotOffset i

/-- The offset of `SLEN[i]` (R53). -/
def slenOffset (i : Nat) : Nat := slotOffset i + 0x004

/-- The offset of `SY[i][j]` (R53). -/
def syOffset (i j : Nat) : Nat := slotOffset i + 0x008 + 4 * j

/-! ### Reads -/

/-- The byte at a host offset of the share buffer or of `RY`: the last one written since reset, or else the stable
unknown this reset left there (10_state.md R40, log entry 2). -/
def State.byteAt (s : State) (off : Nat) : BitVec 8 :=
  match memGet s.mem off with
  | some v => v
  | none => Config.powerOn s.epoch off

/-- The 16-bit length at a host offset: low byte first (log entry 8). -/
def State.halfAt (s : State) (off : Nat) : Half := s.byteAt (off + 1) ++ s.byteAt off

/-- `N_MAX`, `CAP[15:0]` (10_state.md R29). -/
def State.nMax (s : State) : Nat := (s.cap.extractLsb' 0 16).toNat

/-- `M_MAX`, `CAP[31:16]` (10_state.md R29). -/
def State.mMax (s : State) : Nat := (s.cap.extractLsb' 16 16).toNat

/-- `SX[i]` (10_state.md R31). -/
def State.sx (s : State) (i : Nat) : Elem := s.byteAt (sxOffset i)

/-- `SLEN[i]` (10_state.md R31). -/
def State.slen (s : State) (i : Nat) : Half := s.halfAt (slenOffset i)

/-- `SY[i][j]` (10_state.md R31). -/
def State.sy (s : State) (i j : Nat) : Elem := s.byteAt (syOffset i j)

/-- `RY[j]` (10_state.md R32). -/
def State.ry (s : State) (j : Nat) : Elem := s.byteAt (ryOffset j)

/-! ### Updates, one for each register -/

/-- `A <- v` (host only, 10_state.md R21). -/
def State.setA (s : State) (v : Elem) : State := { s with a := v }

/-- `B <- v` (host only, 10_state.md R21). -/
def State.setB (s : State) (v : Elem) : State := { s with b := v }

/-- `E <- v` (host only, 10_state.md R22). -/
def State.setE (s : State) (v : Word) : State := { s with e := v }

/-- `DX <- v` (host only, 10_state.md R26). -/
def State.setDx (s : State) (v : Elem) : State := { s with dx := v }

/-- `NSH <- v` (host only, 10_state.md R27). -/
def State.setNsh (s : State) (v : Half) : State := { s with nsh := v }

/-- `R <- v` (commands only, 10_state.md R23). -/
def State.setR (s : State) (v : Elem) : State := { s with r := v }

/-- `L <- v` (LOG only, 10_state.md R24). -/
def State.setL (s : State) (v : BitVec 8) : State := { s with l := v }

/-- `FLAGS <- f` (TST and CMP only, 10_state.md R25). -/
def State.setFlags (s : State) (f : Flags) : State := { s with flags := f }

/-- `STATUS <- v` (10_state.md R28). -/
def State.setStatus (s : State) (v : Status) : State := { s with status := v }

/-- Store one byte of the share buffer (host only, 20_memory.md R55). -/
def State.putByte (s : State) (off : Nat) (v : BitVec 8) : State := { s with mem := memPut s.mem off v }

/-- Store a 16-bit length, low byte first (host only, 20_memory.md R55, log entry 8). -/
def State.putHalf (s : State) (off : Nat) (v : Half) : State :=
  { s with mem := memPut (memPut s.mem off (v.extractLsb' 0 8)) (off + 1) (v.extractLsb' 8 8) }

/-- Write the result share: `RX <- x`, `RLEN <- len`, `RY[j] <- ys[j]` for the elements given; the other `RY[j]` keep
what they held (INTERP only, 10_state.md R32). -/
def State.setResult (s : State) (x : Elem) (len : Half) (ys : List Elem) : State :=
  { s with rx := x, rlen := len, mem := memPutElems s.mem ryBase ys }

/-- One free choice of INTERP has been made (log entry 3). -/
def State.countDraw (s : State) : State := { s with draws := s.draws + 1 }

/-- The host's index advances by exactly one per transaction (10_state.md R38). -/
def State.advanceHost (s : State) : State := { s with host := { s.host with index := s.host.index + 1 } }

/-- A host read returns a word (30_encoding.md R82). -/
def State.returnRead (s : State) (w : Word) : State :=
  { s with host := { s.host with returned := s.host.returned ++ [w] } }

/-! ### Success and failure -/

/-- The code of a failure (60_exceptions.md R200). -/
def failureCode : Failure → BitVec 4
  | .divideByZero => 1
  | .logOfZero => 2
  | .domainError => 3
  | .tooFewShares => 4
  | .mismatchedShareWidth => 5
  | .duplicateXValue => 6
  | .illegalCommand => 7
  | .capacityExceeded => 8

/-- Success entry (60_exceptions.md R204): `STATUS.CODE <- 0`, `STATUS.ESTKY` as it was. -/
def State.succeed (s : State) : State := s.setStatus { s.status with code := 0 }

/-- Failure entry, `raise F` (60_exceptions.md R203): `STATUS.CODE <- code of F`, `STATUS.ESTKY <- 1`, and nothing
else changes. Control goes nowhere: there is no handler and no saved program counter. -/
def State.raise (s : State) (f : Failure) : State := s.setStatus ⟨failureCode f, true⟩

/-- What stands in place of a return (60_exceptions.md R206): a host write of `w` to `STATUS` clears `ESTKY` if
`w[4] = 1` and otherwise changes nothing; `CODE` is unchanged in either case. -/
def State.clearSticky (s : State) (w : Word) : State :=
  s.setStatus { s.status with estky := s.status.estky && !w.getLsbD 4 }

/-- A command that completes: its writes are committed with the success entry (30_encoding.md R72). -/
def complete (s : State) : Result := .next s.succeed

/-- A command that fails: the failure entry on the state before the command, none of its writes (30_encoding.md R72). -/
def failed (s : State) (f : Failure) : Result := .next (s.raise f)

/-- A command with an element result: write `R` and succeed, or fail (30_encoding.md R72, R73). -/
def completeElem (s : State) : Except Failure Elem → Result
  | .ok v => complete (s.setR v)
  | .error f => failed s f

end Sys2Proof.Machine
end

