-- ==== Sys2Proof/Machine/Flags.lean ====
section
/-! DEFINITION. The flag computations (42_compare.md R140, R141) and the packing of `FLAGS` (R142). -/

namespace Sys2Proof.Machine

/-- TST's flags: `Z` is set iff the element is 00; `EQ`, `LT`, `GT` are unchanged (R140). -/
def zeroFlags (f : Flags) (v : Elem) : Flags := { f with z := decide (v = 0x00) }

/-- CMP's flags: the unsigned comparison; `Z` is unchanged (R141). -/
def compareFlags (f : Flags) (v w : Elem) : Flags :=
  { f with
    eq := decide (v.toNat = w.toNat)
    lt := decide (v.toNat < w.toNat)
    gt := decide (v.toNat > w.toNat) }

/-- `FLAGS[0] = Z`, `FLAGS[1] = EQ`, `FLAGS[2] = LT`, `FLAGS[3] = GT`; bits 31:4 read as zero (R142, 10_state.md R25). -/
def Flags.toWord (f : Flags) : Word :=
  (0#28 ++ BitVec.ofBool f.gt ++ BitVec.ofBool f.lt ++ BitVec.ofBool f.eq ++ BitVec.ofBool f.z : BitVec 32)

/-- `STATUS[3:0] = CODE`, `STATUS[4] = ESTKY`; bits 31:5 read as zero (10_state.md R28). -/
def Status.toWord (v : Status) : Word := (0#27 ++ BitVec.ofBool v.estky ++ v.code : BitVec 32)

end Sys2Proof.Machine
end

