-- ==== Sys2Proof/Machine/Operands.lean ====
section
/-! DEFINITION. The operand sources of the commands (30_encoding.md R73): fixed registers, `E` as a signed integer,
and the share-buffer words INTERP reads (20_memory.md R67). -/

namespace Sys2Proof.Machine

/-- The first operand of every field command (10_state.md R21). -/
def State.operandA (s : State) : Elem := s.a

/-- The second operand (10_state.md R21). -/
def State.operandB (s : State) : Elem := s.b

/-- The exponent `sext_32(E)` (10_state.md R22). -/
def State.exponent (s : State) : Int := s.e.toInt

/-- `n = zext_16(NSH)` (43_interpolation.md R152). -/
def State.shareCount (s : State) : Nat := s.nsh.toNat

/-- `SX[i]` for i in [0,n), in slot order. -/
def State.slotXs (s : State) (n : Nat) : List Elem := (List.range n).map s.sx

/-- `SLEN[i]` for i in [0,n), in slot order. -/
def State.slotLens (s : State) (n : Nat) : List Half := (List.range n).map s.slen

/-- `SY[i][j]` for j in [0,m): the y-values of one share. -/
def State.shareYs (s : State) (i m : Nat) : List Elem := (List.range m).map (s.sy i)

/-- `SY[i][j]` for i in [0,n): position j of every share. -/
def State.positionYs (s : State) (n j : Nat) : List Elem := (List.range n).map fun i => s.sy i j

end Sys2Proof.Machine
end

