-- ==== Sys2Proof/Machine/Compare.lean ====
section
/-! DEFINITION. TST, CMP (42_compare.md). -/

namespace Sys2Proof.Machine

/-- TST: `FLAGS.Z` (R140). -/
def execTst (s : State) : Result := complete (s.setFlags (zeroFlags s.flags s.operandA))

/-- CMP: `FLAGS.EQ`, `FLAGS.LT`, `FLAGS.GT` (R141). -/
def execCmp (s : State) : Result := complete (s.setFlags (compareFlags s.flags s.operandA s.operandB))

end Sys2Proof.Machine
end

