-- ==== Sys2Proof/Machine/FieldArithmetic.lean ====
section
/-! DEFINITION. ADD, SUB, NEG, POS, MUL, DIV (40_field_arithmetic.md). -/

namespace Sys2Proof.Machine

/-- `gmul(a, b)`: 00 if either operand is 00, else the antilogarithm of the sum of the logarithms modulo 255 (R104). -/
def gmul (a b : Elem) : Elem :=
  if a = 0x00 ∨ b = 0x00 then 0x00 else ilogf (emod255 (logf a + logf b))

/-- `gdiv(a, b)`: the divisor is tested first, then the dividend; else the antilogarithm of the difference of the
logarithms, plus 255 if it is negative (R105). -/
def gdiv (a b : Elem) : Except Failure Elem :=
  if b = 0x00 then .error .divideByZero
  else if a = 0x00 then .ok 0x00
  else
    let d : Int := logf a - logf b
    .ok (ilogf (if d < 0 then d + 255 else d).toNat)

/-- ADD: `R <- A xor B` (R100). -/
def execAdd (s : State) : Result := complete (s.setR (s.operandA ^^^ s.operandB))

/-- SUB: `R <- A xor B` (R101). -/
def execSub (s : State) : Result := complete (s.setR (s.operandA ^^^ s.operandB))

/-- NEG: `R <- A` (R102). -/
def execNeg (s : State) : Result := complete (s.setR s.operandA)

/-- POS: `R <- A` (R103). -/
def execPos (s : State) : Result := complete (s.setR s.operandA)

/-- MUL: `R <- gmul(A, B)` (R104). -/
def execMul (s : State) : Result := complete (s.setR (gmul s.operandA s.operandB))

/-- DIV: `R <- gdiv(A, B)`, or DivideByZero (R105). -/
def execDiv (s : State) : Result := completeElem s (gdiv s.operandA s.operandB)

end Sys2Proof.Machine
end

