-- ==== Sys2Proof/Machine/Interpolation.lean ====
section
/-! DEFINITION. INTERP, the Lagrange interpolation command (43_interpolation.md), phase by phase. Sums of logarithms
are exact integers (R158). -/

namespace Sys2Proof.Machine

/-- Phase 0, the checks in their order: CapacityExceeded on `NSH`, TooFewShares, CapacityExceeded on a length,
MismatchedShareWidth; else the common length m (R152). -/
def interpChecks (s : State) : Except Failure Nat :=
  let n := s.shareCount
  let lens := s.slotLens n
  let m := s.slen 0
  if s.nMax < n then .error .capacityExceeded
  else if n < 2 then .error .tooFewShares
  else if lens.any (fun len => decide (s.mMax < len.toNat)) then .error .capacityExceeded
  else if lens.any (fun len => decide (len ≠ m)) then .error .mismatchedShareWidth
  else .ok m.toNat

/-- K of phase 1a: the slots below n whose x is the destination, in slot order (R153). -/
def matchingSlots (s : State) (n : Nat) : List Nat := (List.range n).filter fun i => decide (s.sx i = s.dx)

/-- Phase 1a: the share of slot k is returned verbatim (R153). -/
def returnShare (s : State) (k : Nat) : State :=
  s.setResult (s.sx k) (s.slen k) (s.shareYs k (s.slen k).toNat)

/-- The slot a short-circuit with several matching slots returns: a free choice among them, fresh at each execution
(93_implementation_defined.md U1, log entry 3). `first` is the first of them. -/
def freeSlot (s : State) (matching : List Nat) (first : Nat) : Nat :=
  matching.getD (Config.freeChoice s.draws % matching.length) first

/-- Phase 1b: `a`, the sum of the logarithms of `SX[i] xor DX` (R154). -/
def logSum (dx : Elem) (xs : List Elem) : Int := (xs.map fun x => (logf (x ^^^ dx) : Int)).sum

/-- Does some pair of different slots have equal x? Phase 2 then raises DuplicateXValue, whatever the order of the
visits (R155). -/
def hasDuplicateX (xs : List Elem) : Bool := !decide xs.Nodup

/-- Phase 2: the logarithm `b[s]` of each basis coefficient, in slot order: `a`, less the logarithm of
`SX[s] xor DX`, less that of `SX[s] xor SX[t]` for every other slot t (R155). -/
def basisLogs (dx : Elem) (xs : List Elem) : List Int :=
  xs.zipIdx.map fun (x, i) =>
    logSum dx xs - logf (x ^^^ dx) - ((xs.eraseIdx i).map fun t => (logf (x ^^^ t) : Int)).sum

/-- Phase 3 for one position: the sum (xor) of `gexp(b[s] + LOGF(y))` over the slots whose y is not 00 (R156). -/
def accumulate (bs : List Int) (ys : List Elem) : Elem :=
  (bs.zip ys).foldl (fun acc (b, y) => if y = 0x00 then acc else acc ^^^ gexp (b + logf y)) 0x00

/-- Phases 3 and 4: the m accumulated values (R156, R157). -/
def interpolatedYs (s : State) (n m : Nat) : List Elem :=
  let bs := basisLogs s.dx (s.slotXs n)
  (List.range m).map fun j => accumulate bs (s.positionYs n j)

/-- INTERP (R150): checks, short-circuit, duplicate detection, accumulation, result write. -/
def execInterp (s : State) : Result :=
  match interpChecks s with
  | .error f => failed s f
  | .ok m =>
    let n := s.shareCount
    match matchingSlots s n with
    | [] =>
      if hasDuplicateX (s.slotXs n) then failed s .duplicateXValue
      else complete (s.setResult s.dx (BitVec.ofNat 16 m) (interpolatedYs s n m))
    | [k] => complete (returnShare s k)
    | k :: k' :: ks => complete (returnShare s (freeSlot s (k :: k' :: ks) k)).countDraw

end Sys2Proof.Machine
end

