-- ==== Sys2Proof/Machine/LogExpPow.lean ====
section
/-! DEFINITION. LOG, EXP, POW (41_log_exp_pow.md). -/

namespace Sys2Proof.Machine

/-- `gpow(a, z)`: the zero base is tested with the unreduced exponent; a nonzero base uses the reduced exponent r, so
that the product is r * LOGF(a) (R124). -/
def gpow (a : Elem) (z : Int) : Except Failure Elem :=
  if a = 0x00 then
    if 0 < z then .ok 0x00 else .error .domainError
  else
    let r := emod255 z
    if r = 0 then .ok 0x01 else .ok (gexp (r * logf a : Nat))

/-- LOG: `L <- LOGF(A)`, or LogOfZero (R120). -/
def execLog (s : State) : Result :=
  if s.operandA = 0x00 then failed s .logOfZero
  else complete (s.setL (BitVec.ofNat 8 (logf s.operandA)))

/-- EXP: `R <- gexp(sext_32(E))` (R122). -/
def execExp (s : State) : Result := complete (s.setR (gexp s.exponent))

/-- POW: `R <- gpow(A, sext_32(E))`, or DomainError (R124). -/
def execPow (s : State) : Result := completeElem s (gpow s.operandA s.exponent)

end Sys2Proof.Machine
end

