-- ==== Sys2Proof/Machine/Dispatch.lean ====
section
/-! DEFINITION. The dispatch of a decoded command to its meaning (30_encoding.md R72). -/

namespace Sys2Proof.Machine

def exec (i : Instr) (s : State) : Host.Outcome State Fault Refusal :=
  match i with
  | .add => Sys2Proof.Machine.execAdd s
  | .sub => Sys2Proof.Machine.execSub s
  | .mul => Sys2Proof.Machine.execMul s
  | .div => Sys2Proof.Machine.execDiv s
  | .neg => Sys2Proof.Machine.execNeg s
  | .pos => Sys2Proof.Machine.execPos s
  | .log => Sys2Proof.Machine.execLog s
  | .exp => Sys2Proof.Machine.execExp s
  | .pow => Sys2Proof.Machine.execPow s
  | .tst => Sys2Proof.Machine.execTst s
  | .cmp => Sys2Proof.Machine.execCmp s
  | .interp => Sys2Proof.Machine.execInterp s

end Sys2Proof.Machine
end

