-- ==== Sys2Proof/Machine/HostPort.lean ====
section
/-! DEFINITION. The host port: the address map (20_memory.md R51 to R53), host reads and writes (R54 to R57), bus
errors (R58, R59), the issue of a command by a write to `CMD` (30_encoding.md R72) and reset (70_reset_and_hazards.md
R230). -/

namespace Sys2Proof.Machine

/-! ### The address map -/

/-- The location at an offset of the control block, 0x0000 to 0x0FFF (R51). -/
def locateControl : Nat → Option Location
  | 0x0000 => some .cmd
  | 0x0004 => some .status
  | 0x0008 => some .a
  | 0x000C => some .b
  | 0x0010 => some .e
  | 0x0014 => some .r
  | 0x0018 => some .l
  | 0x001C => some .flags
  | 0x0020 => some .dx
  | 0x0024 => some .nsh
  | 0x0028 => some .cap
  | _ => none

/-- The location at an offset from the start of the result-share window (R52). -/
def locateResult (mMax rel : Nat) : Option Location :=
  if rel = 0x000 then some .rx
  else if rel = 0x004 then some .rlen
  else
    let j := (rel - 0x008) / 4
    if j < mMax then some (.ry j) else none

/-- The location at an offset from the start of slot i (R53). -/
def locateSlot (mMax i rel : Nat) : Option Location :=
  if rel = 0x000 then some (.sx i)
  else if rel = 0x004 then some (.slen i)
  else
    let j := (rel - 0x008) / 4
    if j < mMax then some (.sy i j) else none

/-- The location at a word-aligned host offset, none where R51 to R53 leave it unmapped. -/
def locate (nMax mMax off : Nat) : Option Location :=
  if off < 0x1000 then locateControl off
  else if off < 0x10000 then locateResult mMax (off - 0x1000)
  else
    let i := (off - 0x10000) / 0x1000
    if i < nMax then locateSlot mMax i ((off - 0x10000) % 0x1000) else none

/-- The offset of a location (R51 to R53), as the assembler writes it (30_encoding.md R80). -/
def Location.offset : Location → Nat
  | .cmd => 0x0000
  | .status => 0x0004
  | .a => 0x0008
  | .b => 0x000C
  | .e => 0x0010
  | .r => 0x0014
  | .l => 0x0018
  | .flags => 0x001C
  | .dx => 0x0020
  | .nsh => 0x0024
  | .cap => 0x0028
  | .rx => 0x1000
  | .rlen => 0x1004
  | .ry j => ryOffset j
  | .sx i => sxOffset i
  | .slen i => slenOffset i
  | .sy i j => syOffset i j

/-- What a bus access of `size` bytes at a bus address reaches: a location of the unit, or the reason it reaches none.
An address below `BASE` is not the unit's (R53); an access that is no aligned word (R58) or names no location (R59)
gets a bus error. -/
def busTarget (s : State) (addr size : Nat) : Host.Outcome Location Fault Refusal :=
  if addr < s.base then .refused .outsideUnit
  else
    let off := addr - s.base
    if size ≠ 4 then .fault .busErrorSize
    else if off % 4 ≠ 0 then .fault .busErrorMisaligned
    else
      match locate s.nMax s.mMax off with
      | some loc => .next loc
      | none => .fault .busErrorUnmapped

/-! ### Reads and writes -/

/-- The word a host read of a location returns: its implemented bits, zero-extended (R54, R56); `CMD` reads 0 (R57). -/
def readLocation (s : State) : Location → Word
  | .cmd => 0
  | .status => s.status.toWord
  | .a => s.a.zeroExtend 32
  | .b => s.b.zeroExtend 32
  | .e => s.e
  | .r => s.r.zeroExtend 32
  | .l => s.l.zeroExtend 32
  | .flags => s.flags.toWord
  | .dx => s.dx.zeroExtend 32
  | .nsh => s.nsh.zeroExtend 32
  | .cap => s.cap
  | .rx => s.rx.zeroExtend 32
  | .rlen => s.rlen.zeroExtend 32
  | .ry j => (s.ry j).zeroExtend 32
  | .sx i => (s.sx i).zeroExtend 32
  | .slen i => (s.slen i).zeroExtend 32
  | .sy i j => (s.sy i j).zeroExtend 32

/-- Issue a command word (30_encoding.md R72): an illegal word fails with IllegalCommand and reads no operand (R75);
a legal one runs its command to completion. -/
def issue (s : State) (w : Word) : Result :=
  match decode w with
  | .ok i => exec i s
  | .error _ => failed s .illegalCommand

/-- A host write of a word to a location (R55): (a) a read-write location keeps the implemented low bits (R56), (b)
`CMD` issues a command, (c) `STATUS` clears `ESTKY` if bit 4 is set, (d) a read-only location ignores it (R57). -/
def writeLocation (s : State) (w : Word) : Location → Result
  | .cmd => issue s w
  | .status => .next (s.clearSticky w)
  | .a => .next (s.setA (w.extractLsb' 0 8))
  | .b => .next (s.setB (w.extractLsb' 0 8))
  | .e => .next (s.setE w)
  | .r => .next s
  | .l => .next s
  | .flags => .next s
  | .dx => .next (s.setDx (w.extractLsb' 0 8))
  | .nsh => .next (s.setNsh (w.extractLsb' 0 16))
  | .cap => .next s
  | .rx => .next s
  | .rlen => .next s
  | .ry _ => .next s
  | .sx i => .next (s.putByte (sxOffset i) (w.extractLsb' 0 8))
  | .slen i => .next (s.putHalf (slenOffset i) (w.extractLsb' 0 16))
  | .sy i j => .next (s.putByte (syOffset i j) (w.extractLsb' 0 8))

/-! ### Reset -/

/-- The platform resets the unit (70_reset_and_hazards.md R230): every register at its reset value, the share buffer
and `RY` unspecified afresh (a new epoch of unknowns, log entry 2). `CAP` and the tables are constants; `BASE` and the
host are not the unit's and stay. -/
def resetUnit (s : State) : State :=
  { State.reset with
    cap := s.cap
    base := s.base
    host := s.host
    epoch := s.epoch + 1
    draws := s.draws }

/-! ### One event -/

/-- Perform one event at the host port, indivisibly (20_memory.md R60). -/
def performEvent (s : State) : HostEvent → Result
  | .reset => .next (resetUnit s)
  | .read addr size =>
    match busTarget s addr size with
    | .next loc => .next (s.returnRead (readLocation s loc))
    | .fault f => .fault f
    | .refused r => .refused r
  | .write addr size w =>
    match busTarget s addr size with
    | .next loc => writeLocation s w loc
    | .fault f => .fault f
    | .refused r => .refused r

/-- The next event of the host's list, none once the index equals its length (10_state.md R38). -/
def nextEvent (s : State) : Option HostEvent := s.host.program[s.host.index]?

/-- Load a list of events from outside the machine, the index at its start (10_state.md R38, log entry 4). -/
def State.load (s : State) (program : List HostEvent) : State :=
  { s with host := { s.host with program := program, index := 0 } }

/-- The host transaction that issues a command word: `W(0x0000, w)` of 30_encoding.md R80. -/
def issueEvent (base : Nat) (w : Word) : HostEvent := .write (base + Location.cmd.offset) 4 w

end Sys2Proof.Machine
end

