-- ==== Sys2Proof/Machine/Step.lean ====
section
/-! DEFINITION. One step of the machine: the host performs the next event of its list (30_encoding.md R82, 20_memory.md
R60). -/

namespace Sys2Proof.Machine

/-- One step: the next event of the host's list, performed after the index has moved past it. With no event left the
unit has nothing to do and nothing changes (10_state.md R37, R38, log entry 4). -/
def step (s : State) : Host.Outcome State Fault Refusal :=
  match nextEvent s with
  | none => .next s
  | some event => performEvent s.advanceHost event

/-- The state whose next step issues the command word `w`: a host list of that one transaction is loaded (log
entry 4). A command word is 32 bits. -/
def State.withFetchWord (s : State) (nbits w : Nat) : State :=
  s.load [issueEvent s.base (BitVec.ofNat 32 (w % 2 ^ nbits))]

end Sys2Proof.Machine
end

