-- ==== Sys2Proof/Machine/Assembler.lean ====
section
/-! DEFINITION. The host transactions behind the assembler lines and pseudo-instructions of 30_encoding.md R80, R81,
from `BASE` on. The text of a line is not modelled, only what it stands for. -/

namespace Sys2Proof.Machine

/-- `wr <loc>, <value>`: `W(offset(<loc>), value)` (R80). -/
def asmWr (base : Nat) (loc : Location) (w : Word) : HostEvent := .write (base + loc.offset) 4 w

/-- `rd <loc>`: `R(offset(<loc>))` (R80). -/
def asmRd (base : Nat) (loc : Location) : HostEvent := .read (base + loc.offset) 4

/-- A command's mnemonic line: `W(0x0000, command word)` (R80). -/
def asmCommand (base : Nat) (i : Instr) : HostEvent := issueEvent base (encode i)

/-- `cmd <word>` (R80). -/
def asmCmd (base : Nat) (w : Word) : HostEvent := issueEvent base w

/-- `share i, {x: XX, ys: [Y0 .. Y(k-1)]}` (R81). -/
def asmShare (base i : Nat) (x : Elem) (ys : List Elem) : List HostEvent :=
  [asmWr base (.sx i) (x.zeroExtend 32), asmWr base (.slen i) (BitVec.ofNat 32 ys.length)]
    ++ ys.zipIdx.map fun (y, j) => asmWr base (.sy i j) (y.zeroExtend 32)

/-- `clre` (R81). -/
def asmClre (base : Nat) : List HostEvent := [asmWr base .status 0x10]

/-- `lda v` (R81). -/
def asmLda (base : Nat) (v : Elem) : List HostEvent := [asmWr base .a (v.zeroExtend 32)]

/-- `ldb v` (R81). -/
def asmLdb (base : Nat) (v : Elem) : List HostEvent := [asmWr base .b (v.zeroExtend 32)]

/-- `lde z`, the 32-bit two's complement of z (R81). -/
def asmLde (base : Nat) (z : Int) : List HostEvent := [asmWr base .e (BitVec.ofInt 32 z)]

/-- `interp n, XX` (R81). -/
def asmInterp (base n : Nat) (x : Elem) : List HostEvent :=
  [asmWr base .nsh (BitVec.ofNat 32 n), asmWr base .dx (x.zeroExtend 32), asmCommand base .interp]

/-- `rdshare` for a result share of `len` values (R81). -/
def asmRdshare (base len : Nat) : List HostEvent :=
  [asmRd base .rx, asmRd base .rlen] ++ (List.range len).map fun j => asmRd base (.ry j)

end Sys2Proof.Machine
end

