-- ==== Sys2Proof/Safety.lean ====
section
/-! DEFINITION. What counts as a safe run, in the terms the claims use: the parameter constraints, the admitted host
events, the invariant of the machine, what an operation leaves alone, and reference arithmetic that does not use the
logarithm tables. -/

namespace Sys2Proof.Machine

/-! ### Parameters, the mapped locations and the admitted events -/

/-- The constraints on the two open parameters: `2 <= N_MAX <= 65535` and `M_MAX <= 1022` (00_scope.md R5); the upper
bound on `N_MAX` is the width of its field in `CAP`. -/
def CapOk (s : State) : Prop := 2 ≤ s.nMax ∧ s.mMax ≤ 1022

/-- The locations that exist: `RY[j]` and `SY[i][j]` for j below `M_MAX`, slots below `N_MAX`, and all the named
registers (20_memory.md R51 to R53). -/
def Location.Mapped (nMax mMax : Nat) : Location → Prop
  | .ry j => j < mMax
  | .sx i => i < nMax
  | .slen i => i < nMax
  | .sy i j => i < nMax ∧ j < mMax
  | _ => True

/-- A host event that a program may hold: a reset, or an aligned word access to a mapped location of the unit
(20_memory.md R58, R59). -/
def Admitted (s : State) : HostEvent → Prop
  | .reset => True
  | .read addr size => size = 4 ∧ ∃ loc, Location.Mapped s.nMax s.mMax loc ∧ addr = s.base + loc.offset
  | .write addr size _ => size = 4 ∧ ∃ loc, Location.Mapped s.nMax s.mMax loc ∧ addr = s.base + loc.offset

/-- The host offsets that hold a byte of memory: the byte of `RY[j]`, `SX[i]` and `SY[i][j]`, and the two bytes of
`SLEN[i]`. -/
def MemoryOffset (nMax mMax off : Nat) : Prop :=
  (∃ j, j < mMax ∧ off = ryOffset j) ∨
    ∃ i, i < nMax ∧
      (off = sxOffset i ∨ off = slenOffset i ∨ off = slenOffset i + 1 ∨ ∃ j, j < mMax ∧ off = syOffset i j)

/-- The words of the share buffer start here (20_memory.md R53); below lie only the control block and the result
share. -/
def shareBufferStart : Nat := 0x10000

/-! ### The invariant -/

/-- What every state the machine can be in satisfies. -/
structure Inv (s : State) : Prop where
  /-- the memory is in canonical form (log entry 8) -/
  memoryCanonical : Memory.wf s.mem = true
  /-- every listed byte belongs to a mapped word (20_memory.md R52, R53) -/
  memoryMapped : ∀ cell ∈ s.mem, MemoryOffset s.nMax s.mMax cell.1
  /-- the parameters keep their constraints (00_scope.md R5) -/
  capOk : CapOk s
  /-- "9 to 15 never occur" (10_state.md R28) -/
  codeDefined : s.status.code.toNat ≤ 8
  /-- "the value 255 never occurs" (10_state.md R24) -/
  logarithm : s.l.toNat ≤ 254
  /-- the result share is no longer than a share may be (10_state.md R32) -/
  resultLength : s.rlen.toNat ≤ s.mMax
  /-- at most one of EQ, LT, GT is set (42_compare.md R141) -/
  comparison : ¬ (s.flags.eq = true ∧ s.flags.lt = true) ∧ ¬ (s.flags.eq = true ∧ s.flags.gt = true) ∧
    ¬ (s.flags.lt = true ∧ s.flags.gt = true)
  /-- the host's index stays in its list or at its end (10_state.md R38) -/
  hostIndex : s.host.index ≤ s.host.program.length

/-- Every register at the reset value of 10_state.md R40, and no byte of the share buffer or of `RY` written. -/
structure RegistersCleared (s : State) : Prop where
  a : s.a = 0x00
  b : s.b = 0x00
  dx : s.dx = 0x00
  r : s.r = 0x00
  rx : s.rx = 0x00
  e : s.e = 0
  l : s.l = 0
  flags : s.flags = ⟨false, false, false, false⟩
  nsh : s.nsh = 0
  rlen : s.rlen = 0
  status : s.status = ⟨0, false⟩
  unwritten : s.mem = []

/-! ### What an operation leaves alone -/

/-- Every byte of memory reads as before. -/
def SameMemory (s t : State) : Prop := ∀ off, t.byteAt off = s.byteAt off

/-- The host-writable registers, the parameters, the host agent and the epoch are as before. -/
structure SameHostSide (s t : State) : Prop where
  a : t.a = s.a
  b : t.b = s.b
  e : t.e = s.e
  dx : t.dx = s.dx
  nsh : t.nsh = s.nsh
  cap : t.cap = s.cap
  base : t.base = s.base
  host : t.host = s.host
  epoch : t.epoch = s.epoch

/-- Everything but `R`, `L`, `FLAGS` and `STATUS` is as before: the host side, the result share, all of memory and the
count of free choices. -/
structure FieldFrame (s t : State) : Prop where
  hostSide : SameHostSide s t
  rx : t.rx = s.rx
  rlen : t.rlen = s.rlen
  memory : SameMemory s t
  draws : t.draws = s.draws

/-- The command succeeded: `CODE` is 0 and `ESTKY` is as it was (60_exceptions.md R204). -/
def Succeeded (s t : State) : Prop := t.status = ⟨0, s.status.estky⟩

/-- The command failed with this code: `STATUS` is written and every other part of the state is as before
(60_exceptions.md R203). -/
def FailedWith (code : BitVec 4) (s t : State) : Prop := t = { s with status := ⟨code, true⟩ }

/-- Outcome of a command that writes `R` and nothing else but `STATUS`. -/
structure WritesR (s t : State) (v : Elem) : Prop where
  result : t.r = v
  success : Succeeded s t
  l : t.l = s.l
  flags : t.flags = s.flags
  frame : FieldFrame s t

/-- The next host event issues this command word (30_encoding.md R72, R80). -/
def Issues (s : State) (w : Word) : Prop := nextEvent s = some (issueEvent s.base w)

/-! ### Reference arithmetic, without the tables -/

/-- Shift-and-xor multiplication over the low k bits of the second factor. -/
def mulBits : Nat → Elem → Elem → Elem
  | 0, _, _ => 0x00
  | k + 1, a, b => (if b.getLsbD 0 then a else 0x00) ^^^ mulBits k (xtime a) (b >>> 1)

/-- Polynomial multiplication modulo x^8+x^4+x^3+x+1 (40_field_arithmetic.md R104). -/
def polyMul (a b : Elem) : Elem := mulBits 8 a b

/-- A power by repeated polynomial multiplication (41_log_exp_pow.md R125). -/
def polyPow (a : Elem) : Nat → Elem
  | 0 => 0x01
  | k + 1 => polyMul (polyPow a k) a

/-- The value at x of the polynomial with these coefficients, constant term first. -/
def polyEval (coeffs : List Elem) (x : Elem) : Elem := coeffs.foldr (fun c acc => c ^^^ polyMul x acc) 0x00

/-- The value of `gdiv`, used only for nonzero divisors (43_interpolation.md R151). -/
def quotient (a b : Elem) : Elem :=
  match gdiv a b with
  | .ok v => v
  | .error _ => 0x00

/-- The Lagrange basis coefficient of slot i: the product over the other slots t below n of
`gdiv(DX xor SX[t], SX[i] xor SX[t])` (43_interpolation.md R151). -/
def lagrangeBasis (s : State) (n i : Nat) : Elem :=
  ((List.range n).filter fun t => decide (t ≠ i)).foldl
    (fun acc t => gmul acc (quotient (s.dx ^^^ s.sx t) (s.sx i ^^^ s.sx t))) 0x01

/-- The closed form of position j of the result: the xor over the slots of `gmul(SY[i][j], basis of i)`
(43_interpolation.md R151). -/
def lagrangeSum (s : State) (n j : Nat) : Elem :=
  (List.range n).foldl (fun acc i => acc ^^^ gmul (s.sy i j) (lagrangeBasis s n i)) 0x00

/-! ### INTERP's conditions, in the spec's words -/

/-- INTERP's four checks pass, with the common length m (43_interpolation.md R152). -/
structure ChecksPass (s : State) (m : Nat) : Prop where
  atMostNMax : s.nsh.toNat ≤ s.nMax
  atLeastTwo : 2 ≤ s.nsh.toNat
  lengthsFit : ∀ i, i < s.nsh.toNat → (s.slen i).toNat ≤ s.mMax
  sameLength : ∀ i, i < s.nsh.toNat → (s.slen i).toNat = m

/-- The x-coordinates of the used slots are pairwise distinct (70_reset_and_hazards.md R234). -/
def DistinctXs (s : State) : Prop :=
  ∀ i k, i < s.nsh.toNat → k < s.nsh.toNat → i ≠ k → s.sx i ≠ s.sx k

/-- INTERP's result: `RX = DX`, `RLEN = m`, `RY[j]` given for j below m, every other byte of memory as before, and
the rest of the state but `STATUS` and the model's count of free choices (43_interpolation.md R150, R157). -/
structure WritesShare (s t : State) (m : Nat) (y : Nat → Elem) : Prop where
  success : Succeeded s t
  rx : t.rx = s.dx
  rlen : t.rlen.toNat = m
  ry : ∀ j, j < m → t.ry j = y j
  otherBytes : ∀ off, (∀ j, j < m → off ≠ ryOffset j) → t.byteAt off = s.byteAt off
  r : t.r = s.r
  l : t.l = s.l
  flags : t.flags = s.flags
  hostSide : SameHostSide s t

end Sys2Proof.Machine
end

