-- ==== Sys2Proof/Certificates/Slice0/Obligations.lean ====
section
/-! DEFINITION. The statements about GF256U for the provers. Every docstring names the rules of spec/ behind it. -/

open Sys2Proof Sys2Proof.Machine

/-! ### Command words -/

/-- Four command words written out from R70 (opcode in bits 7:0, the rest zero) decode to their commands. -/
def Obligations.SampleWordsDecode : Prop :=
  decode 0b00000000000000000000000000000001#32 = .ok .add ∧
  decode 0b00000000000000000000000000000100#32 = .ok .div ∧
  decode 0b00000000000000000000000000001001#32 = .ok .pow ∧
  decode 0b00000000000000000000000000010000#32 = .ok .interp

/-- R71: exactly the twelve words of the opcode map decode, each to its command; SUB has ADD's semantics and POS has
NEG's. -/
def Obligations.OpcodeMapIsExact : Prop :=
  (∀ (w : Word) (i : Instr), decode w = .ok i ↔
    (w, i) ∈ [(0x00000001#32, Instr.add), (0x00000002#32, .sub), (0x00000003#32, .mul), (0x00000004#32, .div),
      (0x00000005#32, .neg), (0x00000006#32, .pos), (0x00000007#32, .log), (0x00000008#32, .exp),
      (0x00000009#32, .pow), (0x0000000A#32, .tst), (0x0000000B#32, .cmp), (0x00000010#32, .interp)]) ∧
  ∀ s, exec .sub s = exec .add s ∧ exec .pos s = exec .neg s

/-- Decoding the encoding of a well-formed command gives it back, and a word that decodes to a command is that
command's encoding: no word stands for two commands, no command for two words (R70, R71). -/
def Obligations.EncodeDecodeRoundTrip : Prop :=
  ∀ i : Instr, i.wellFormed = true →
    decode (encode i) = .ok i ∧ decodeTableWord 32 (encode i).toNat = some i ∧
    ∀ w : Word, decode w = .ok i → w = encode i

/-- R75: a word that fails one of the two checks on command words (`ZERO` clear, opcode assigned) fails with
IllegalCommand, code 7, and changes `STATUS` only; a word that passes both runs the command it decodes to. -/
def Obligations.IllegalWordsFailWithCode7 : Prop :=
  ∀ (s : State) (w : Word),
    (commandWordWellFormed w = false → issue s w = .next { s with status := ⟨7, true⟩ }) ∧
    (commandWordWellFormed w = true → ∃ i, decode w = .ok i ∧ issue s w = exec i s)

/-! ### Steps -/

/-- A step whose host event issues a word issues it on the state with the host's index moved past the event and
nothing else changed (R72, R60): a word that decodes runs its command, and a word that decodes to none fails with
IllegalCommand and changes `STATUS` only. `withFetchWord` makes the next event issue its word. -/
def Obligations.StepRunsTheIssuedCommand : Prop :=
  (∀ (s : State) (w : Word), Issues s w →
    step s = issue { s with host := { s.host with index := s.host.index + 1 } } w ∧
    (∀ i, decode w = .ok i → step s = exec i { s with host := { s.host with index := s.host.index + 1 } }) ∧
    ((∀ i, decode w ≠ .ok i) →
      step s = .next { s with host := { s.host with index := s.host.index + 1 }, status := ⟨7, true⟩ })) ∧
  ∀ (s : State) (w : Word), Issues (s.withFetchWord 32 w.toNat) w

/-- The host performs its list in order: a step moves the index by exactly one and keeps the list (R38, R82). That a
step past the end of the list changes nothing is the model's choice (log entry 4). -/
def Obligations.HostListRunsInOrder : Prop :=
  ∀ s t : State, step s = .next t →
    (s.host.index < s.host.program.length →
      t.host.index = s.host.index + 1 ∧ t.host.program = s.host.program ∧
        (t.host.returned = s.host.returned ∨ ∃ w, t.host.returned = s.host.returned ++ [w])) ∧
    (s.host.program.length ≤ s.host.index → t = s)

/-! ### Field commands -/

/-- R100, R101: ADD and SUB write `A xor B` to `R`, never fail and touch nothing else. -/
def Obligations.AddAndSubAreXor : Prop :=
  ∀ s : State,
    (∃ t, exec .add s = .next t ∧ WritesR s t (s.a ^^^ s.b)) ∧
    (∃ t, exec .sub s = .next t ∧ WritesR s t (s.a ^^^ s.b))

/-- R102, R103: NEG and POS write `A` to `R`, never fail and touch nothing else. -/
def Obligations.NegAndPosAreIdentity : Prop :=
  ∀ s : State,
    (∃ t, exec .neg s = .next t ∧ WritesR s t s.a) ∧ (∃ t, exec .pos s = .next t ∧ WritesR s t s.a)

/-- R104: MUL writes the product: 00 if an operand is 00, else the antilogarithm of the sum of the logarithms modulo
255; in every case polynomial multiplication modulo x^8+x^4+x^3+x+1. -/
def Obligations.MulIsPolynomialMultiplication : Prop :=
  ∀ s : State, ∃ t, exec .mul s = .next t ∧ WritesR s t (polyMul s.a s.b) ∧
    (s.a = 0x00 ∨ s.b = 0x00 → t.r = 0x00) ∧
    (s.a ≠ 0x00 → s.b ≠ 0x00 → t.r = ilogf ((logf s.a + logf s.b) % 255))

/-- R105: DIV by a nonzero divisor writes the quotient q, with q times `B` equal to `A` as polynomials; by the zero
divisor it fails with DivideByZero, whatever the dividend. -/
def Obligations.DivIsExactOrFails : Prop :=
  ∀ s : State,
    (s.b ≠ 0x00 → ∃ t q, exec .div s = .next t ∧ WritesR s t q ∧ polyMul q s.b = s.a ∧
      (s.a = 0x00 → q = 0x00) ∧
      (s.a ≠ 0x00 → logf s.b ≤ logf s.a → q = ilogf (logf s.a - logf s.b)) ∧
      (s.a ≠ 0x00 → logf s.a < logf s.b → q = ilogf (logf s.a + 255 - logf s.b))) ∧
    (s.b = 0x00 → ∃ t, exec .div s = .next t ∧ FailedWith 1 s t)

/-- R120: LOG of a nonzero `A` writes to `L` the logarithm, below 255, whose power of the generator is `A`; LOG of 00
fails with LogOfZero. -/
def Obligations.LogIsTheDiscreteLogarithm : Prop :=
  ∀ s : State,
    (s.a ≠ 0x00 → ∃ t, exec .log s = .next t ∧ t.l.toNat = logf s.a ∧ t.l.toNat < 255 ∧
      polyPow 0x03 t.l.toNat = s.a ∧ Succeeded s t ∧ t.r = s.r ∧ t.flags = s.flags ∧ FieldFrame s t) ∧
    (s.a = 0x00 → ∃ t, exec .log s = .next t ∧ FailedWith 2 s t)

/-- R122: EXP writes the generator to the signed exponent `E` reduced modulo 255 (floor modulo), never 00, for every
`E`. -/
def Obligations.ExpIsThePowerOfTheGenerator : Prop :=
  ∀ s : State, ∃ t, exec .exp s = .next t ∧ WritesR s t (ilogf (s.e.toInt % 255).toNat) ∧
    t.r = polyPow 0x03 (s.e.toInt % 255).toNat ∧ t.r ≠ 0x00

/-- R124: POW of the zero base is 00 for a positive signed exponent and fails with DomainError otherwise; of a nonzero
base it is 01 when the exponent is 0 modulo 255 and `gexp(r * LOGF(A))` otherwise. -/
def Obligations.PowByCases : Prop :=
  ∀ s : State,
    (s.a = 0x00 → 0 < s.e.toInt → ∃ t, exec .pow s = .next t ∧ WritesR s t 0x00) ∧
    (s.a = 0x00 → s.e.toInt ≤ 0 → ∃ t, exec .pow s = .next t ∧ FailedWith 3 s t) ∧
    (s.a ≠ 0x00 → s.e.toInt % 255 = 0 → ∃ t, exec .pow s = .next t ∧ WritesR s t 0x01) ∧
    (s.a ≠ 0x00 → s.e.toInt % 255 ≠ 0 →
      ∃ t, exec .pow s = .next t ∧ WritesR s t (ilogf (((s.e.toInt % 255) * logf s.a) % 255).toNat))

/-- R140: TST sets `Z` iff `A` is 00 and changes no other flag and no register. -/
def Obligations.TstSetsZ : Prop :=
  ∀ s : State, ∃ t, exec .tst s = .next t ∧ (t.flags.z = true ↔ s.a = 0x00) ∧
    t.flags.eq = s.flags.eq ∧ t.flags.lt = s.flags.lt ∧ t.flags.gt = s.flags.gt ∧
    Succeeded s t ∧ t.r = s.r ∧ t.l = s.l ∧ FieldFrame s t

/-- R141: CMP sets `EQ`, `LT`, `GT` by the unsigned comparison of `A` with `B` and changes neither `Z` nor any
register. -/
def Obligations.CmpIsTheUnsignedComparison : Prop :=
  ∀ s : State, ∃ t, exec .cmp s = .next t ∧
    (t.flags.eq = true ↔ s.a = s.b) ∧ (t.flags.lt = true ↔ s.a < s.b) ∧ (t.flags.gt = true ↔ s.b < s.a) ∧
    t.flags.z = s.flags.z ∧ Succeeded s t ∧ t.r = s.r ∧ t.l = s.l ∧ FieldFrame s t

/-! ### Laws of the field functions -/

/-- R33: entry e of the antilogarithm table is what the generation procedure reaches after e rounds, the logarithm
table is keyed back to e, and after 255 rounds the procedure is at 01 again. -/
def Obligations.TablesAreTheGeneratedOnes : Prop :=
  (∀ e, e < 255 → ilogf e = generated e ∧ logf (generated e) = e) ∧ generated 255 = 0x01

/-- R34: the tables are mutual inverses, `ILOGF` reaches every nonzero element and never 00, its first two values are
01 and 03, and every logarithm is at most 254. -/
def Obligations.TablesAreMutualInverses : Prop :=
  (∀ v : Elem, v ≠ 0x00 → ilogf (logf v) = v ∧ logf v ≤ 254) ∧
  (∀ e, e ≤ 254 → logf (ilogf e) = e ∧ ilogf e ≠ 0x00) ∧ ilogf 0 = 0x01 ∧ ilogf 1 = 0x03

/-- R107 in command terms: ADD with its operands swapped gives the same `R`, ADD of the result and `B` restores `A`,
adding an element to itself gives 00, and adding 00 changes nothing. -/
def Obligations.AddLawsOfCommands : Prop :=
  ∀ s t u : State, exec .add s = .next t →
    (exec .add ((s.setA s.b).setB s.a) = .next u → u.r = t.r) ∧
    (exec .add (s.setA t.r) = .next u → u.r = s.a) ∧
    (s.a = s.b → t.r = 0x00) ∧ (s.b = 0x00 → t.r = s.a)

/-- R108: multiplication is commutative, associative and distributes over addition, 01 is its identity, 00 absorbs,
and dividing a product by a nonzero factor gives the other factor. -/
def Obligations.MultiplicationLaws : Prop :=
  ∀ a b c : Elem,
    gmul a b = gmul b a ∧ gmul (gmul a b) c = gmul a (gmul b c) ∧
    gmul a (b ^^^ c) = gmul a b ^^^ gmul a c ∧
    gmul a 0x01 = a ∧ gmul a 0x00 = 0x00 ∧ (b ≠ 0x00 → gdiv (gmul a b) b = .ok a)

/-- R109: a quotient times its divisor is the dividend, a quotient is the product with the divisor's inverse, division
by 00 fails for every dividend, and 00 divided by a nonzero element is 00. -/
def Obligations.DivisionLaws : Prop :=
  ∀ a b : Elem,
    (b ≠ 0x00 → ∃ q inverse, gdiv a b = .ok q ∧ gmul q b = a ∧ gdiv 0x01 b = .ok inverse ∧ q = gmul a inverse) ∧
    gdiv a 0x00 = .error .divideByZero ∧ (b ≠ 0x00 → gdiv 0x00 b = .ok 0x00)

/-- R121: LOG inverts EXP on [0,255) and EXP inverts LOG; logarithms turn products and quotients into sums and
differences modulo 255. -/
def Obligations.LogarithmLaws : Prop :=
  (∀ e : Nat, e < 255 → logf (gexp (e : Int)) = e) ∧ (∀ v : Elem, v ≠ 0x00 → gexp (logf v) = v) ∧
  ∀ a b : Elem, a ≠ 0x00 → b ≠ 0x00 →
    (logf (gmul a b) : Int) = ((logf a : Int) + logf b) % 255 ∧
    ∃ q, gdiv a b = .ok q ∧ (logf q : Int) = ((logf a : Int) - logf b) % 255

/-- R123: EXP has period 255, turns sums into products and negation into the inverse, and is POW of the generator. -/
def Obligations.ExponentialLaws : Prop :=
  ∀ y z : Int,
    gexp (z + 255) = gexp z ∧ gmul (gexp y) (gexp z) = gexp (y + z) ∧ gmul (gexp (-z)) (gexp z) = 0x01 ∧
    gpow 0x03 z = .ok (gexp z)

/-- R125: every nonzero element has the minimal period 255 / gcd(255, LOGF(a)), opposite powers are inverse, powers
add in the exponent and have period 255, and a positive power is repeated multiplication, for the zero base too. -/
def Obligations.PowerLaws : Prop :=
  (∀ a : Elem, a ≠ 0x00 →
    (∃ k, k = 255 / Nat.gcd 255 (logf a) ∧ k ∣ 255 ∧ 0 < k ∧ gpow a (k : Int) = .ok 0x01 ∧
      ∀ i : Nat, 0 < i → i < k → gpow a (i : Int) ≠ .ok 0x01) ∧
    ∀ y z : Int, ∃ u v w, gpow a y = .ok u ∧ gpow a z = .ok v ∧ gpow a (y + z) = .ok w ∧ w = gmul u v ∧
      gpow a (y + 255) = .ok u ∧ ∃ x, gpow a (-y) = .ok x ∧ gmul u x = 0x01) ∧
  ∀ (a : Elem) (z : Nat), 1 ≤ z → gpow a (z : Int) = .ok (polyPow a z)

/-! ### Success and failure -/

/-- R203: when a command word ends in a failure, whichever, `STATUS` holds its code with `ESTKY` set and nothing else
of the state has changed. -/
def Obligations.FailureChangesOnlyStatus : Prop :=
  ∀ (s t : State) (w : Word), issue s w = .next t → t.status.code ≠ 0 → FailedWith t.status.code s t

/-- A command word that ends with `CODE` 0 leaves `ESTKY` as it was (R204); one that ends with any other code sets it
(R203). -/
def Obligations.SuccessKeepsStickyFlag : Prop :=
  ∀ (s t : State) (w : Word), issue s w = .next t →
    (t.status.code = 0 → t.status.estky = s.status.estky) ∧ (t.status.code ≠ 0 → t.status.estky = true)

/-- Every write to `CMD` completes, with one of the nine outcomes, whatever the word and the state (R240, R200). -/
def Obligations.EveryCommandWordCompletes : Prop :=
  ∀ (s : State) (w : Word), ∃ t, issue s w = .next t ∧ t.status.code.toNat ≤ 8

/-- R200: which outcome a command word reports, exactly when; the causes of INTERP's failures are spelled out with
their priorities (R205). -/
def Obligations.FailureCodesMatchCauses : Prop :=
  ∀ (s t : State) (w : Word), CapOk s → issue s w = .next t →
    t.status.code.toNat ≤ 8 ∧
    (t.status.code = 1 ↔ decode w = .ok .div ∧ s.b = 0x00) ∧
    (t.status.code = 2 ↔ decode w = .ok .log ∧ s.a = 0x00) ∧
    (t.status.code = 3 ↔ decode w = .ok .pow ∧ s.a = 0x00 ∧ s.e.toInt ≤ 0) ∧
    (t.status.code = 4 ↔ decode w = .ok .interp ∧ s.nsh.toNat < 2) ∧
    (t.status.code = 5 ↔ decode w = .ok .interp ∧ 2 ≤ s.nsh.toNat ∧ s.nsh.toNat ≤ s.nMax ∧
      (∀ k, k < s.nsh.toNat → (s.slen k).toNat ≤ s.mMax) ∧ ∃ k, k < s.nsh.toNat ∧ s.slen k ≠ s.slen 0) ∧
    (t.status.code = 6 ↔ decode w = .ok .interp ∧ (∃ m, ChecksPass s m) ∧
      (∀ k, k < s.nsh.toNat → s.sx k ≠ s.dx) ∧ ¬ DistinctXs s) ∧
    (t.status.code = 7 ↔ ∀ i, decode w ≠ .ok i) ∧
    (t.status.code = 8 ↔ decode w = .ok .interp ∧ (s.nMax < s.nsh.toNat ∨
      2 ≤ s.nsh.toNat ∧ ∃ k, k < s.nsh.toNat ∧ s.mMax < (s.slen k).toNat))

/-! ### INTERP -/

/-- R152: the four checks, in this order, each ending the command with its failure and no other effect. -/
def Obligations.InterpChecksInOrder : Prop :=
  ∀ s : State,
    (s.nMax < s.nsh.toNat → ∃ t, exec .interp s = .next t ∧ FailedWith 8 s t) ∧
    (s.nsh.toNat ≤ s.nMax → s.nsh.toNat < 2 → ∃ t, exec .interp s = .next t ∧ FailedWith 4 s t) ∧
    (s.nsh.toNat ≤ s.nMax → 2 ≤ s.nsh.toNat → (∃ i, i < s.nsh.toNat ∧ s.mMax < (s.slen i).toNat) →
      ∃ t, exec .interp s = .next t ∧ FailedWith 8 s t) ∧
    (s.nsh.toNat ≤ s.nMax → 2 ≤ s.nsh.toNat → (∀ i, i < s.nsh.toNat → (s.slen i).toNat ≤ s.mMax) →
      (∃ i, 1 ≤ i ∧ i < s.nsh.toNat ∧ s.slen i ≠ s.slen 0) → ∃ t, exec .interp s = .next t ∧ FailedWith 5 s t)

/-- R153: when the checks pass and some used slot's x is `DX`, INTERP succeeds and returns one such share verbatim,
duplicates or not. Which one of several is free: the statement holds for every choice (log entry 3). -/
def Obligations.InterpShortCircuitReturnsAMatchingShare : Prop :=
  ∀ (s : State) (m : Nat), ChecksPass s m → (∃ k, k < s.nsh.toNat ∧ s.sx k = s.dx) →
    ∃ t k, exec .interp s = .next t ∧ k < s.nsh.toNat ∧ s.sx k = s.dx ∧ WritesShare s t m (s.sy k)

/-- DuplicateXValue is raised when the checks pass, no used slot's x is `DX`, and two used slots have equal x; nothing
else changes then (R155). -/
def Obligations.InterpDetectsDuplicates : Prop :=
  ∀ (s : State) (m i k : Nat), ChecksPass s m → (∀ j, j < s.nsh.toNat → s.sx j ≠ s.dx) →
    i < s.nsh.toNat → k < s.nsh.toNat → i ≠ k → s.sx i = s.sx k →
    ∃ t, exec .interp s = .next t ∧ FailedWith 6 s t

/-- The closed form of R151: with distinct x-coordinates, position j of the result is the Lagrange sum of the shares,
and every byte outside `RY[0..m)` and every other register is as before. -/
def Obligations.InterpIsTheLagrangeSum : Prop :=
  ∀ (s : State) (m : Nat), ChecksPass s m → DistinctXs s →
    ∃ t, exec .interp s = .next t ∧ WritesShare s t m (lagrangeSum s s.nsh.toNat)

/-- The contract of R151: when for each position j the shares lie on a polynomial with at most n coefficients (degree
at most n-1), the result at j is that polynomial's value at `DX`. -/
def Obligations.InterpEvaluatesThePolynomials : Prop :=
  ∀ (s : State) (m : Nat) (p : Nat → List Elem), ChecksPass s m → DistinctXs s →
    (∀ j, j < m → (p j).length ≤ s.nsh.toNat ∧ ∀ i, i < s.nsh.toNat → s.sy i j = polyEval (p j) (s.sx i)) →
    ∃ t, exec .interp s = .next t ∧ WritesShare s t m fun j => polyEval (p j) s.dx

/-- Extrapolation consistency, R163 (b): two share sets whose positions lie on the same polynomials, each set with at
least as many shares as the polynomials have coefficients, give the same result share at the same destination. -/
def Obligations.InterpExtrapolationIsConsistent : Prop :=
  ∀ (s s' : State) (m : Nat) (p : Nat → List Elem), ChecksPass s m → ChecksPass s' m → DistinctXs s →
    DistinctXs s' → s'.dx = s.dx →
    (∀ j, j < m → (p j).length ≤ s.nsh.toNat ∧ (p j).length ≤ s'.nsh.toNat ∧
      (∀ i, i < s.nsh.toNat → s.sy i j = polyEval (p j) (s.sx i)) ∧
      ∀ i, i < s'.nsh.toNat → s'.sy i j = polyEval (p j) (s'.sx i)) →
    ∃ t t', exec .interp s = .next t ∧ exec .interp s' = .next t' ∧ t.status.code = 0 ∧ t'.status.code = 0 ∧
      t'.rx = t.rx ∧ t'.rlen = t.rlen ∧ ∀ j, j < m → t'.ry j = t.ry j

/-- R160 and R159: INTERP's outcome and position j of its result depend on nothing but `NSH`, `DX`, the capacities,
`SX` and `SLEN` of the used slots and their `SY` at position j (and the model's count of free choices). -/
def Obligations.InterpReadsOnlyTheUsedShares : Prop :=
  ∀ s s' t t' : State, s'.nsh = s.nsh → s'.dx = s.dx → s'.cap = s.cap → s'.draws = s.draws →
    (∀ i, i < s.nsh.toNat → s'.sx i = s.sx i ∧ s'.slen i = s.slen i) →
    exec .interp s = .next t → exec .interp s' = .next t' →
    t'.status.code = t.status.code ∧
    (t.status.code = 0 → t'.rx = t.rx ∧ t'.rlen = t.rlen ∧
      ∀ j, j < t.rlen.toNat → (∀ i, i < s.nsh.toNat → s'.sy i j = s.sy i j) → t'.ry j = t.ry j)

/-! ### What commands may touch -/

/-- No command writes a host-writable register or the share buffer (R20, R21, R26, R27, R31), nor the parameters or
the host. -/
def Obligations.CommandsKeepOperandsAndShares : Prop :=
  ∀ (s t : State) (i : Instr), CapOk s → exec i s = .next t →
    SameHostSide s t ∧ ∀ off, shareBufferStart ≤ off → t.byteAt off = s.byteAt off

/-- A field command's outcome depends on `A`, `B` and `E` only: never on `R`, `L`, `FLAGS`, `STATUS`, the shares or
the result share (R73, 90_conflicts.md C5). -/
def Obligations.FieldCommandsReadOnlyTheirOperands : Prop :=
  ∀ (s s' t t' : State) (i : Instr), i ≠ .interp → s'.a = s.a → s'.b = s.b → s'.e = s.e →
    exec i s = .next t → exec i s' = .next t' →
    t'.status.code = t.status.code ∧
    (t.status.code = 0 →
      (i ∈ [Instr.add, .sub, .mul, .div, .neg, .pos, .exp, .pow] → t'.r = t.r) ∧
      (i = .log → t'.l = t.l) ∧ (i = .tst → t'.flags.z = t.flags.z) ∧
      (i = .cmp → t'.flags.eq = t.flags.eq ∧ t'.flags.lt = t.flags.lt ∧ t'.flags.gt = t.flags.gt))

/-- Over every step: `R` changes only in a successful ADD, SUB, MUL, DIV, NEG, POS, EXP or POW, `L` only in a successful
LOG, `FLAGS` only in TST or CMP, the result share only in a successful INTERP, or else by reset (R23, R24, R25, R32). -/
def Obligations.ResultsChangeOnlyByTheirCommands : Prop :=
  ∀ s t : State, CapOk s → step s = .next t → nextEvent s ≠ some .reset →
    (t.r ≠ s.r → t.status.code = 0 ∧
      ∃ i ∈ [Instr.add, .sub, .mul, .div, .neg, .pos, .exp, .pow], Issues s (encode i)) ∧
    (t.l ≠ s.l → t.status.code = 0 ∧ Issues s (encode .log)) ∧
    (t.flags ≠ s.flags → t.status.code = 0 ∧ (Issues s (encode .tst) ∨ Issues s (encode .cmp))) ∧
    (t.rx ≠ s.rx ∨ t.rlen ≠ s.rlen ∨ (∃ j, j < s.mMax ∧ t.ry j ≠ s.ry j) →
      t.status.code = 0 ∧ Issues s (encode .interp))

/-! ### The host port -/

/-- R51, R52, R53: the offsets of all locations, and the map from word offsets to locations is exact: every mapped
location is found at its offset, which is word-aligned, and nothing is found anywhere else. -/
def Obligations.AddressMapIsExact : Prop :=
  ([Location.cmd, .status, .a, .b, .e, .r, .l, .flags, .dx, .nsh, .cap, .rx, .rlen].map Location.offset =
    [0x0000, 0x0004, 0x0008, 0x000C, 0x0010, 0x0014, 0x0018, 0x001C, 0x0020, 0x0024, 0x0028, 0x1000, 0x1004]) ∧
  (∀ i j, Location.offset (.ry j) = 0x1008 + 4 * j ∧ Location.offset (.sx i) = 0x10000 + 0x1000 * i ∧
    Location.offset (.slen i) = 0x10000 + 0x1000 * i + 0x004 ∧
    Location.offset (.sy i j) = 0x10000 + 0x1000 * i + 0x008 + 4 * j) ∧
  ∀ s : State, CapOk s →
    (∀ loc, loc.Mapped s.nMax s.mMax → locate s.nMax s.mMax loc.offset = some loc ∧ loc.offset % 4 = 0) ∧
    ∀ off loc, off % 4 = 0 → locate s.nMax s.mMax off = some loc → loc.Mapped s.nMax s.mMax ∧ loc.offset = off

/-- R54: a host read of a mapped word returns it and changes nothing but the host's index and the list of values its
reads returned. The word returned is the named register or buffer word, its implemented bits zero-extended; `CMD` reads
0. -/
def Obligations.HostReadsHaveNoSideEffect : Prop :=
  (∀ (s : State) (loc : Location), CapOk s → loc.Mapped s.nMax s.mMax →
    nextEvent s = some (.read (s.base + loc.offset) 4) →
    step s = .next { s with host := { s.host with
      index := s.host.index + 1, returned := s.host.returned ++ [readLocation s loc] } }) ∧
  ∀ s : State,
    (readLocation s .a).toNat = s.a.toNat ∧ (readLocation s .b).toNat = s.b.toNat ∧ readLocation s .e = s.e ∧
    (readLocation s .r).toNat = s.r.toNat ∧ (readLocation s .l).toNat = s.l.toNat ∧
    (readLocation s .dx).toNat = s.dx.toNat ∧ (readLocation s .nsh).toNat = s.nsh.toNat ∧
    (readLocation s .rx).toNat = s.rx.toNat ∧ (readLocation s .rlen).toNat = s.rlen.toNat ∧
    readLocation s .cap = s.cap ∧ readLocation s .cmd = 0 ∧
    (readLocation s .flags).toNat =
      s.flags.z.toNat + 2 * s.flags.eq.toNat + 4 * s.flags.lt.toNat + 8 * s.flags.gt.toNat ∧
    (readLocation s .status).toNat = s.status.code.toNat + 16 * s.status.estky.toNat ∧
    ∀ i j,
      (readLocation s (.ry j)).toNat = (s.ry j).toNat ∧ (readLocation s (.sx i)).toNat = (s.sx i).toNat ∧
      (readLocation s (.slen i)).toNat = (s.slen i).toNat ∧ (readLocation s (.sy i j)).toNat = (s.sy i j).toNat

/-- A step that writes a read-write word keeps its implemented low bits, read back zero-extended: 8 for an element, 16
for a count, 32 for `E` (R55 (a), R56). The word at every other mapped location reads as before (R39), every byte of
memory but the one or two stored is as before, and the host's index moves past the event. -/
def Obligations.HostWritesReadBackNarrowed : Prop :=
  ∀ (s : State) (w : Word) (loc : Location), CapOk s → loc.Mapped s.nMax s.mMax →
    loc ∉ [Location.cmd, .status, .r, .l, .flags, .cap, .rx, .rlen] → (∀ j, loc ≠ .ry j) →
    nextEvent s = some (.write (s.base + loc.offset) 4 w) →
    ∃ t, step s = .next t ∧
      ((loc ∈ [Location.a, .b, .dx] ∨ (∃ i, loc = .sx i) ∨ ∃ i j, loc = .sy i j) →
        readLocation t loc = w &&& 0x000000FF#32) ∧
      ((loc = .nsh ∨ ∃ i, loc = .slen i) → readLocation t loc = w &&& 0x0000FFFF#32) ∧
      (loc = .e → readLocation t loc = w) ∧
      (∀ other, other ≠ loc → other.Mapped s.nMax s.mMax → readLocation t other = readLocation s other) ∧
      (loc ∈ [Location.a, .b, .e, .dx, .nsh] → SameMemory s t) ∧
      (∀ off, off ≠ loc.offset → ((∃ i, loc = .slen i) → off ≠ loc.offset + 1) → t.byteAt off = s.byteAt off) ∧
      t.host = { s.host with index := s.host.index + 1 } ∧ t.base = s.base ∧ t.epoch = s.epoch ∧ t.draws = s.draws

/-- R57: a host write to a read-only word changes nothing but the host's index, and a read of `CMD` returns 0. -/
def Obligations.ReadOnlyWritesAreIgnored : Prop :=
  ∀ (s : State) (w : Word) (loc : Location), CapOk s → loc.Mapped s.nMax s.mMax →
    (loc ∈ [Location.r, .l, .flags, .cap, .rx, .rlen] ∨ ∃ j, loc = .ry j) →
    (nextEvent s = some (.write (s.base + loc.offset) 4 w) →
      step s = .next { s with host := { s.host with index := s.host.index + 1 } }) ∧
    readLocation s .cmd = 0

/-- The words of `FLAGS` and `STATUS`: `Z`, `EQ`, `LT`, `GT` in bits 0 to 3; `CODE` in bits 3:0 and `ESTKY` in bit 4;
all other bits read as zero (R142, R25, R28). -/
def Obligations.FlagsAndStatusPacking : Prop :=
  ∀ s : State,
    ((readLocation s .flags).getLsbD 0 = s.flags.z ∧ (readLocation s .flags).getLsbD 1 = s.flags.eq ∧
      (readLocation s .flags).getLsbD 2 = s.flags.lt ∧ (readLocation s .flags).getLsbD 3 = s.flags.gt ∧
      ∀ k, 4 ≤ k → (readLocation s .flags).getLsbD k = false) ∧
    (readLocation s .status).extractLsb' 0 4 = s.status.code ∧
    (readLocation s .status).getLsbD 4 = s.status.estky ∧
    ∀ k, 5 ≤ k → (readLocation s .status).getLsbD k = false

/-- R206: a step that writes `STATUS` with bit 4 set clears `ESTKY` and changes nothing else but the host's index, one
with bit 4 clear changes nothing else; issuing a failed word again with nothing changed fails in the same way; and over
every step `ESTKY` is cleared only by such a write or by reset. -/
def Obligations.StickyFlagIsClearedOnlyByHostOrReset : Prop :=
  (∀ (s : State) (w : Word), nextEvent s = some (.write (s.base + 0x0004) 4 w) →
    (w.getLsbD 4 = true → step s = .next { s with
      status := ⟨s.status.code, false⟩, host := { s.host with index := s.host.index + 1 } }) ∧
    (w.getLsbD 4 = false → step s = .next { s with host := { s.host with index := s.host.index + 1 } })) ∧
  (∀ (s t : State) (w : Word), issue s w = .next t → t.status.code ≠ 0 → issue t w = .next t) ∧
  ∀ s t : State, step s = .next t → s.status.estky = true → t.status.estky = false →
    nextEvent s = some .reset ∨
      ∃ w : Word, w.getLsbD 4 = true ∧ nextEvent s = some (.write (s.base + 0x0004) 4 w)

/-- A host access that is no aligned 32-bit word of the unit, or names no mapped location, is a bus error and issues
no command (R58, R59). That the model stops there, and the order of the three, is the model's choice (log entry 6). -/
def Obligations.OtherAccessesAreBusErrors : Prop :=
  ∀ (s : State) (addr size : Nat) (w : Word), CapOk s → s.base ≤ addr →
    (nextEvent s = some (.read addr size) ∨ nextEvent s = some (.write addr size w)) →
    (size ≠ 4 → step s = .fault .busErrorSize) ∧
    (size = 4 → (addr - s.base) % 4 ≠ 0 → step s = .fault .busErrorMisaligned) ∧
    (size = 4 → (addr - s.base) % 4 = 0 →
      (∀ loc : Location, loc.Mapped s.nMax s.mMax → addr ≠ s.base + loc.offset) →
      step s = .fault .busErrorUnmapped)

/-- Every reset and every aligned word access to a mapped location runs (R54, R55, R240). That the machine STOPS at every
other event is the model's choice: at a bus error (log entry 6; R58 and R59 only give the response and no change of
state) and at an address below `BASE` (log entry 7). -/
def Obligations.ExactlyTheAdmittedEventsRun : Prop :=
  ∀ (s : State) (event : HostEvent), CapOk s → nextEvent s = some event →
    ((∃ t, step s = .next t) ↔ Admitted s event)

/-! ### Reset, parameters and the invariant -/

/-- A reset leaves every register 0 (R40, R230) and keeps the constant `CAP` (R29). By the model's choice no byte of the
share buffer or of `RY` then counts as written (log entries 2 and 5), and the reset event keeps the platform's `BASE`
and only advances the host (log entry 5). The state right after power-on has the same registers. -/
def Obligations.ResetClearsEveryRegister : Prop :=
  RegistersCleared State.reset ∧
  ∀ s : State, nextEvent s = some .reset →
    ∃ t, step s = .next t ∧ RegistersCleared t ∧ t.cap = s.cap ∧ t.base = s.base ∧
      t.host = { s.host with index := s.host.index + 1 }

/-- `CAP` holds `N_MAX` in bits 15:0 and `M_MAX` in bits 31:16, and no step, not a reset, not a command, not a host
write, changes it (R29). That `BASE` is a constant which no step writes is the model's form of that parameter (R5, log
entry 1). -/
def Obligations.ParametersAreConstant : Prop :=
  ∀ s t : State, step s = .next t →
    t.cap = s.cap ∧ t.base = s.base ∧ t.nMax = s.nMax ∧ t.mMax = s.mMax ∧
    (readLocation s .cap).toNat = s.mMax * 65536 + s.nMax

/-- The state after reset satisfies the invariant. Its parameters are the reference values, the model's choice (log
entry 1). -/
def Obligations.ResetSatisfiesInvariant : Prop := Inv State.reset

/-- Every step keeps the invariant: canonical memory that lists mapped bytes only, legal parameters, `CODE` at most 8,
`L` at most 254, `RLEN` at most `M_MAX`, at most one comparison flag, the host's index in its list. -/
def Obligations.StepKeepsInvariant : Prop := ∀ s t : State, Inv s → step s = .next t → Inv t

/-- Writing a share as the pseudo-instruction `share` of R81 does (x, length, then each y) leaves exactly that share in
the slot: each write completes, and `SX`, `SLEN` and every `SY` below the length read back. -/
def Obligations.ShareLinesStoreTheShare : Prop :=
  ∀ (s : State) (i : Nat) (x : Elem) (ys : List Elem), CapOk s → i < s.nMax → ys.length ≤ s.mMax →
    s.host.program = asmShare s.base i x ys → s.host.index = 0 →
    ∃ t, Host.Core.run core (ys.length + 2) s = .next t ∧
      t.sx i = x ∧ (t.slen i).toNat = ys.length ∧ (∀ j (h : j < ys.length), t.sy i j = ys[j]) ∧
      ∀ k, k < s.nMax → k ≠ i → t.sx k = s.sx k ∧ t.slen k = s.slen k ∧ ∀ j, j < s.mMax → t.sy k j = s.sy k j
end

