-- ==== Sys2Proof/Laws/State.lean ====
section
/-! SUPPORT. One lemma per field per named update of Machine/Ops.lean, true by rfl, so that no proof unfolds a record
update; and the reads of bytes and of the parameters under updates that leave them alone. -/

namespace Sys2Proof.Machine

/-! ### setA -/

@[simp] theorem setA_a (s : State) (v : Elem) : (s.setA v).a = v := rfl
@[simp] theorem setA_b (s : State) (v : Elem) : (s.setA v).b = s.b := rfl
@[simp] theorem setA_e (s : State) (v : Elem) : (s.setA v).e = s.e := rfl
@[simp] theorem setA_r (s : State) (v : Elem) : (s.setA v).r = s.r := rfl
@[simp] theorem setA_l (s : State) (v : Elem) : (s.setA v).l = s.l := rfl
@[simp] theorem setA_flags (s : State) (v : Elem) : (s.setA v).flags = s.flags := rfl
@[simp] theorem setA_dx (s : State) (v : Elem) : (s.setA v).dx = s.dx := rfl
@[simp] theorem setA_nsh (s : State) (v : Elem) : (s.setA v).nsh = s.nsh := rfl
@[simp] theorem setA_status (s : State) (v : Elem) : (s.setA v).status = s.status := rfl
@[simp] theorem setA_cap (s : State) (v : Elem) : (s.setA v).cap = s.cap := rfl
@[simp] theorem setA_rx (s : State) (v : Elem) : (s.setA v).rx = s.rx := rfl
@[simp] theorem setA_rlen (s : State) (v : Elem) : (s.setA v).rlen = s.rlen := rfl
@[simp] theorem setA_mem (s : State) (v : Elem) : (s.setA v).mem = s.mem := rfl
@[simp] theorem setA_base (s : State) (v : Elem) : (s.setA v).base = s.base := rfl
@[simp] theorem setA_host (s : State) (v : Elem) : (s.setA v).host = s.host := rfl
@[simp] theorem setA_epoch (s : State) (v : Elem) : (s.setA v).epoch = s.epoch := rfl
@[simp] theorem setA_draws (s : State) (v : Elem) : (s.setA v).draws = s.draws := rfl
@[simp] theorem setA_nMax (s : State) (v : Elem) : (s.setA v).nMax = s.nMax := rfl
@[simp] theorem setA_mMax (s : State) (v : Elem) : (s.setA v).mMax = s.mMax := rfl
@[simp] theorem setA_byteAt (s : State) (v : Elem) (off : Nat) : (s.setA v).byteAt off = s.byteAt off := rfl
@[simp] theorem setA_sx (s : State) (v : Elem) (i : Nat) : (s.setA v).sx i = s.sx i := rfl
@[simp] theorem setA_slen (s : State) (v : Elem) (i : Nat) : (s.setA v).slen i = s.slen i := rfl
@[simp] theorem setA_ry (s : State) (v : Elem) (i : Nat) : (s.setA v).ry i = s.ry i := rfl
@[simp] theorem setA_sy (s : State) (v : Elem) (i j : Nat) : (s.setA v).sy i j = s.sy i j := rfl

/-! ### setB -/

@[simp] theorem setB_a (s : State) (v : Elem) : (s.setB v).a = s.a := rfl
@[simp] theorem setB_b (s : State) (v : Elem) : (s.setB v).b = v := rfl
@[simp] theorem setB_e (s : State) (v : Elem) : (s.setB v).e = s.e := rfl
@[simp] theorem setB_r (s : State) (v : Elem) : (s.setB v).r = s.r := rfl
@[simp] theorem setB_l (s : State) (v : Elem) : (s.setB v).l = s.l := rfl
@[simp] theorem setB_flags (s : State) (v : Elem) : (s.setB v).flags = s.flags := rfl
@[simp] theorem setB_dx (s : State) (v : Elem) : (s.setB v).dx = s.dx := rfl
@[simp] theorem setB_nsh (s : State) (v : Elem) : (s.setB v).nsh = s.nsh := rfl
@[simp] theorem setB_status (s : State) (v : Elem) : (s.setB v).status = s.status := rfl
@[simp] theorem setB_cap (s : State) (v : Elem) : (s.setB v).cap = s.cap := rfl
@[simp] theorem setB_rx (s : State) (v : Elem) : (s.setB v).rx = s.rx := rfl
@[simp] theorem setB_rlen (s : State) (v : Elem) : (s.setB v).rlen = s.rlen := rfl
@[simp] theorem setB_mem (s : State) (v : Elem) : (s.setB v).mem = s.mem := rfl
@[simp] theorem setB_base (s : State) (v : Elem) : (s.setB v).base = s.base := rfl
@[simp] theorem setB_host (s : State) (v : Elem) : (s.setB v).host = s.host := rfl
@[simp] theorem setB_epoch (s : State) (v : Elem) : (s.setB v).epoch = s.epoch := rfl
@[simp] theorem setB_draws (s : State) (v : Elem) : (s.setB v).draws = s.draws := rfl
@[simp] theorem setB_nMax (s : State) (v : Elem) : (s.setB v).nMax = s.nMax := rfl
@[simp] theorem setB_mMax (s : State) (v : Elem) : (s.setB v).mMax = s.mMax := rfl
@[simp] theorem setB_byteAt (s : State) (v : Elem) (off : Nat) : (s.setB v).byteAt off = s.byteAt off := rfl
@[simp] theorem setB_sx (s : State) (v : Elem) (i : Nat) : (s.setB v).sx i = s.sx i := rfl
@[simp] theorem setB_slen (s : State) (v : Elem) (i : Nat) : (s.setB v).slen i = s.slen i := rfl
@[simp] theorem setB_ry (s : State) (v : Elem) (i : Nat) : (s.setB v).ry i = s.ry i := rfl
@[simp] theorem setB_sy (s : State) (v : Elem) (i j : Nat) : (s.setB v).sy i j = s.sy i j := rfl

/-! ### setE -/

@[simp] theorem setE_a (s : State) (v : Word) : (s.setE v).a = s.a := rfl
@[simp] theorem setE_b (s : State) (v : Word) : (s.setE v).b = s.b := rfl
@[simp] theorem setE_e (s : State) (v : Word) : (s.setE v).e = v := rfl
@[simp] theorem setE_r (s : State) (v : Word) : (s.setE v).r = s.r := rfl
@[simp] theorem setE_l (s : State) (v : Word) : (s.setE v).l = s.l := rfl
@[simp] theorem setE_flags (s : State) (v : Word) : (s.setE v).flags = s.flags := rfl
@[simp] theorem setE_dx (s : State) (v : Word) : (s.setE v).dx = s.dx := rfl
@[simp] theorem setE_nsh (s : State) (v : Word) : (s.setE v).nsh = s.nsh := rfl
@[simp] theorem setE_status (s : State) (v : Word) : (s.setE v).status = s.status := rfl
@[simp] theorem setE_cap (s : State) (v : Word) : (s.setE v).cap = s.cap := rfl
@[simp] theorem setE_rx (s : State) (v : Word) : (s.setE v).rx = s.rx := rfl
@[simp] theorem setE_rlen (s : State) (v : Word) : (s.setE v).rlen = s.rlen := rfl
@[simp] theorem setE_mem (s : State) (v : Word) : (s.setE v).mem = s.mem := rfl
@[simp] theorem setE_base (s : State) (v : Word) : (s.setE v).base = s.base := rfl
@[simp] theorem setE_host (s : State) (v : Word) : (s.setE v).host = s.host := rfl
@[simp] theorem setE_epoch (s : State) (v : Word) : (s.setE v).epoch = s.epoch := rfl
@[simp] theorem setE_draws (s : State) (v : Word) : (s.setE v).draws = s.draws := rfl
@[simp] theorem setE_nMax (s : State) (v : Word) : (s.setE v).nMax = s.nMax := rfl
@[simp] theorem setE_mMax (s : State) (v : Word) : (s.setE v).mMax = s.mMax := rfl
@[simp] theorem setE_byteAt (s : State) (v : Word) (off : Nat) : (s.setE v).byteAt off = s.byteAt off := rfl
@[simp] theorem setE_sx (s : State) (v : Word) (i : Nat) : (s.setE v).sx i = s.sx i := rfl
@[simp] theorem setE_slen (s : State) (v : Word) (i : Nat) : (s.setE v).slen i = s.slen i := rfl
@[simp] theorem setE_ry (s : State) (v : Word) (i : Nat) : (s.setE v).ry i = s.ry i := rfl
@[simp] theorem setE_sy (s : State) (v : Word) (i j : Nat) : (s.setE v).sy i j = s.sy i j := rfl

/-! ### setDx -/

@[simp] theorem setDx_a (s : State) (v : Elem) : (s.setDx v).a = s.a := rfl
@[simp] theorem setDx_b (s : State) (v : Elem) : (s.setDx v).b = s.b := rfl
@[simp] theorem setDx_e (s : State) (v : Elem) : (s.setDx v).e = s.e := rfl
@[simp] theorem setDx_r (s : State) (v : Elem) : (s.setDx v).r = s.r := rfl
@[simp] theorem setDx_l (s : State) (v : Elem) : (s.setDx v).l = s.l := rfl
@[simp] theorem setDx_flags (s : State) (v : Elem) : (s.setDx v).flags = s.flags := rfl
@[simp] theorem setDx_dx (s : State) (v : Elem) : (s.setDx v).dx = v := rfl
@[simp] theorem setDx_nsh (s : State) (v : Elem) : (s.setDx v).nsh = s.nsh := rfl
@[simp] theorem setDx_status (s : State) (v : Elem) : (s.setDx v).status = s.status := rfl
@[simp] theorem setDx_cap (s : State) (v : Elem) : (s.setDx v).cap = s.cap := rfl
@[simp] theorem setDx_rx (s : State) (v : Elem) : (s.setDx v).rx = s.rx := rfl
@[simp] theorem setDx_rlen (s : State) (v : Elem) : (s.setDx v).rlen = s.rlen := rfl
@[simp] theorem setDx_mem (s : State) (v : Elem) : (s.setDx v).mem = s.mem := rfl
@[simp] theorem setDx_base (s : State) (v : Elem) : (s.setDx v).base = s.base := rfl
@[simp] theorem setDx_host (s : State) (v : Elem) : (s.setDx v).host = s.host := rfl
@[simp] theorem setDx_epoch (s : State) (v : Elem) : (s.setDx v).epoch = s.epoch := rfl
@[simp] theorem setDx_draws (s : State) (v : Elem) : (s.setDx v).draws = s.draws := rfl
@[simp] theorem setDx_nMax (s : State) (v : Elem) : (s.setDx v).nMax = s.nMax := rfl
@[simp] theorem setDx_mMax (s : State) (v : Elem) : (s.setDx v).mMax = s.mMax := rfl
@[simp] theorem setDx_byteAt (s : State) (v : Elem) (off : Nat) : (s.setDx v).byteAt off = s.byteAt off := rfl
@[simp] theorem setDx_sx (s : State) (v : Elem) (i : Nat) : (s.setDx v).sx i = s.sx i := rfl
@[simp] theorem setDx_slen (s : State) (v : Elem) (i : Nat) : (s.setDx v).slen i = s.slen i := rfl
@[simp] theorem setDx_ry (s : State) (v : Elem) (i : Nat) : (s.setDx v).ry i = s.ry i := rfl
@[simp] theorem setDx_sy (s : State) (v : Elem) (i j : Nat) : (s.setDx v).sy i j = s.sy i j := rfl

/-! ### setNsh -/

@[simp] theorem setNsh_a (s : State) (v : Half) : (s.setNsh v).a = s.a := rfl
@[simp] theorem setNsh_b (s : State) (v : Half) : (s.setNsh v).b = s.b := rfl
@[simp] theorem setNsh_e (s : State) (v : Half) : (s.setNsh v).e = s.e := rfl
@[simp] theorem setNsh_r (s : State) (v : Half) : (s.setNsh v).r = s.r := rfl
@[simp] theorem setNsh_l (s : State) (v : Half) : (s.setNsh v).l = s.l := rfl
@[simp] theorem setNsh_flags (s : State) (v : Half) : (s.setNsh v).flags = s.flags := rfl
@[simp] theorem setNsh_dx (s : State) (v : Half) : (s.setNsh v).dx = s.dx := rfl
@[simp] theorem setNsh_nsh (s : State) (v : Half) : (s.setNsh v).nsh = v := rfl
@[simp] theorem setNsh_status (s : State) (v : Half) : (s.setNsh v).status = s.status := rfl
@[simp] theorem setNsh_cap (s : State) (v : Half) : (s.setNsh v).cap = s.cap := rfl
@[simp] theorem setNsh_rx (s : State) (v : Half) : (s.setNsh v).rx = s.rx := rfl
@[simp] theorem setNsh_rlen (s : State) (v : Half) : (s.setNsh v).rlen = s.rlen := rfl
@[simp] theorem setNsh_mem (s : State) (v : Half) : (s.setNsh v).mem = s.mem := rfl
@[simp] theorem setNsh_base (s : State) (v : Half) : (s.setNsh v).base = s.base := rfl
@[simp] theorem setNsh_host (s : State) (v : Half) : (s.setNsh v).host = s.host := rfl
@[simp] theorem setNsh_epoch (s : State) (v : Half) : (s.setNsh v).epoch = s.epoch := rfl
@[simp] theorem setNsh_draws (s : State) (v : Half) : (s.setNsh v).draws = s.draws := rfl
@[simp] theorem setNsh_nMax (s : State) (v : Half) : (s.setNsh v).nMax = s.nMax := rfl
@[simp] theorem setNsh_mMax (s : State) (v : Half) : (s.setNsh v).mMax = s.mMax := rfl
@[simp] theorem setNsh_byteAt (s : State) (v : Half) (off : Nat) : (s.setNsh v).byteAt off = s.byteAt off := rfl
@[simp] theorem setNsh_sx (s : State) (v : Half) (i : Nat) : (s.setNsh v).sx i = s.sx i := rfl
@[simp] theorem setNsh_slen (s : State) (v : Half) (i : Nat) : (s.setNsh v).slen i = s.slen i := rfl
@[simp] theorem setNsh_ry (s : State) (v : Half) (i : Nat) : (s.setNsh v).ry i = s.ry i := rfl
@[simp] theorem setNsh_sy (s : State) (v : Half) (i j : Nat) : (s.setNsh v).sy i j = s.sy i j := rfl

/-! ### setR -/

@[simp] theorem setR_a (s : State) (v : Elem) : (s.setR v).a = s.a := rfl
@[simp] theorem setR_b (s : State) (v : Elem) : (s.setR v).b = s.b := rfl
@[simp] theorem setR_e (s : State) (v : Elem) : (s.setR v).e = s.e := rfl
@[simp] theorem setR_r (s : State) (v : Elem) : (s.setR v).r = v := rfl
@[simp] theorem setR_l (s : State) (v : Elem) : (s.setR v).l = s.l := rfl
@[simp] theorem setR_flags (s : State) (v : Elem) : (s.setR v).flags = s.flags := rfl
@[simp] theorem setR_dx (s : State) (v : Elem) : (s.setR v).dx = s.dx := rfl
@[simp] theorem setR_nsh (s : State) (v : Elem) : (s.setR v).nsh = s.nsh := rfl
@[simp] theorem setR_status (s : State) (v : Elem) : (s.setR v).status = s.status := rfl
@[simp] theorem setR_cap (s : State) (v : Elem) : (s.setR v).cap = s.cap := rfl
@[simp] theorem setR_rx (s : State) (v : Elem) : (s.setR v).rx = s.rx := rfl
@[simp] theorem setR_rlen (s : State) (v : Elem) : (s.setR v).rlen = s.rlen := rfl
@[simp] theorem setR_mem (s : State) (v : Elem) : (s.setR v).mem = s.mem := rfl
@[simp] theorem setR_base (s : State) (v : Elem) : (s.setR v).base = s.base := rfl
@[simp] theorem setR_host (s : State) (v : Elem) : (s.setR v).host = s.host := rfl
@[simp] theorem setR_epoch (s : State) (v : Elem) : (s.setR v).epoch = s.epoch := rfl
@[simp] theorem setR_draws (s : State) (v : Elem) : (s.setR v).draws = s.draws := rfl
@[simp] theorem setR_nMax (s : State) (v : Elem) : (s.setR v).nMax = s.nMax := rfl
@[simp] theorem setR_mMax (s : State) (v : Elem) : (s.setR v).mMax = s.mMax := rfl
@[simp] theorem setR_byteAt (s : State) (v : Elem) (off : Nat) : (s.setR v).byteAt off = s.byteAt off := rfl
@[simp] theorem setR_sx (s : State) (v : Elem) (i : Nat) : (s.setR v).sx i = s.sx i := rfl
@[simp] theorem setR_slen (s : State) (v : Elem) (i : Nat) : (s.setR v).slen i = s.slen i := rfl
@[simp] theorem setR_ry (s : State) (v : Elem) (i : Nat) : (s.setR v).ry i = s.ry i := rfl
@[simp] theorem setR_sy (s : State) (v : Elem) (i j : Nat) : (s.setR v).sy i j = s.sy i j := rfl

/-! ### setL -/

@[simp] theorem setL_a (s : State) (v : BitVec 8) : (s.setL v).a = s.a := rfl
@[simp] theorem setL_b (s : State) (v : BitVec 8) : (s.setL v).b = s.b := rfl
@[simp] theorem setL_e (s : State) (v : BitVec 8) : (s.setL v).e = s.e := rfl
@[simp] theorem setL_r (s : State) (v : BitVec 8) : (s.setL v).r = s.r := rfl
@[simp] theorem setL_l (s : State) (v : BitVec 8) : (s.setL v).l = v := rfl
@[simp] theorem setL_flags (s : State) (v : BitVec 8) : (s.setL v).flags = s.flags := rfl
@[simp] theorem setL_dx (s : State) (v : BitVec 8) : (s.setL v).dx = s.dx := rfl
@[simp] theorem setL_nsh (s : State) (v : BitVec 8) : (s.setL v).nsh = s.nsh := rfl
@[simp] theorem setL_status (s : State) (v : BitVec 8) : (s.setL v).status = s.status := rfl
@[simp] theorem setL_cap (s : State) (v : BitVec 8) : (s.setL v).cap = s.cap := rfl
@[simp] theorem setL_rx (s : State) (v : BitVec 8) : (s.setL v).rx = s.rx := rfl
@[simp] theorem setL_rlen (s : State) (v : BitVec 8) : (s.setL v).rlen = s.rlen := rfl
@[simp] theorem setL_mem (s : State) (v : BitVec 8) : (s.setL v).mem = s.mem := rfl
@[simp] theorem setL_base (s : State) (v : BitVec 8) : (s.setL v).base = s.base := rfl
@[simp] theorem setL_host (s : State) (v : BitVec 8) : (s.setL v).host = s.host := rfl
@[simp] theorem setL_epoch (s : State) (v : BitVec 8) : (s.setL v).epoch = s.epoch := rfl
@[simp] theorem setL_draws (s : State) (v : BitVec 8) : (s.setL v).draws = s.draws := rfl
@[simp] theorem setL_nMax (s : State) (v : BitVec 8) : (s.setL v).nMax = s.nMax := rfl
@[simp] theorem setL_mMax (s : State) (v : BitVec 8) : (s.setL v).mMax = s.mMax := rfl
@[simp] theorem setL_byteAt (s : State) (v : BitVec 8) (off : Nat) : (s.setL v).byteAt off = s.byteAt off := rfl
@[simp] theorem setL_sx (s : State) (v : BitVec 8) (i : Nat) : (s.setL v).sx i = s.sx i := rfl
@[simp] theorem setL_slen (s : State) (v : BitVec 8) (i : Nat) : (s.setL v).slen i = s.slen i := rfl
@[simp] theorem setL_ry (s : State) (v : BitVec 8) (i : Nat) : (s.setL v).ry i = s.ry i := rfl
@[simp] theorem setL_sy (s : State) (v : BitVec 8) (i j : Nat) : (s.setL v).sy i j = s.sy i j := rfl

/-! ### setFlags -/

@[simp] theorem setFlags_a (s : State) (f : Flags) : (s.setFlags f).a = s.a := rfl
@[simp] theorem setFlags_b (s : State) (f : Flags) : (s.setFlags f).b = s.b := rfl
@[simp] theorem setFlags_e (s : State) (f : Flags) : (s.setFlags f).e = s.e := rfl
@[simp] theorem setFlags_r (s : State) (f : Flags) : (s.setFlags f).r = s.r := rfl
@[simp] theorem setFlags_l (s : State) (f : Flags) : (s.setFlags f).l = s.l := rfl
@[simp] theorem setFlags_flags (s : State) (f : Flags) : (s.setFlags f).flags = f := rfl
@[simp] theorem setFlags_dx (s : State) (f : Flags) : (s.setFlags f).dx = s.dx := rfl
@[simp] theorem setFlags_nsh (s : State) (f : Flags) : (s.setFlags f).nsh = s.nsh := rfl
@[simp] theorem setFlags_status (s : State) (f : Flags) : (s.setFlags f).status = s.status := rfl
@[simp] theorem setFlags_cap (s : State) (f : Flags) : (s.setFlags f).cap = s.cap := rfl
@[simp] theorem setFlags_rx (s : State) (f : Flags) : (s.setFlags f).rx = s.rx := rfl
@[simp] theorem setFlags_rlen (s : State) (f : Flags) : (s.setFlags f).rlen = s.rlen := rfl
@[simp] theorem setFlags_mem (s : State) (f : Flags) : (s.setFlags f).mem = s.mem := rfl
@[simp] theorem setFlags_base (s : State) (f : Flags) : (s.setFlags f).base = s.base := rfl
@[simp] theorem setFlags_host (s : State) (f : Flags) : (s.setFlags f).host = s.host := rfl
@[simp] theorem setFlags_epoch (s : State) (f : Flags) : (s.setFlags f).epoch = s.epoch := rfl
@[simp] theorem setFlags_draws (s : State) (f : Flags) : (s.setFlags f).draws = s.draws := rfl
@[simp] theorem setFlags_nMax (s : State) (f : Flags) : (s.setFlags f).nMax = s.nMax := rfl
@[simp] theorem setFlags_mMax (s : State) (f : Flags) : (s.setFlags f).mMax = s.mMax := rfl
@[simp] theorem setFlags_byteAt (s : State) (f : Flags) (off : Nat) : (s.setFlags f).byteAt off = s.byteAt off := rfl
@[simp] theorem setFlags_sx (s : State) (f : Flags) (i : Nat) : (s.setFlags f).sx i = s.sx i := rfl
@[simp] theorem setFlags_slen (s : State) (f : Flags) (i : Nat) : (s.setFlags f).slen i = s.slen i := rfl
@[simp] theorem setFlags_ry (s : State) (f : Flags) (i : Nat) : (s.setFlags f).ry i = s.ry i := rfl
@[simp] theorem setFlags_sy (s : State) (f : Flags) (i j : Nat) : (s.setFlags f).sy i j = s.sy i j := rfl

/-! ### setStatus -/

@[simp] theorem setStatus_a (s : State) (v : Status) : (s.setStatus v).a = s.a := rfl
@[simp] theorem setStatus_b (s : State) (v : Status) : (s.setStatus v).b = s.b := rfl
@[simp] theorem setStatus_e (s : State) (v : Status) : (s.setStatus v).e = s.e := rfl
@[simp] theorem setStatus_r (s : State) (v : Status) : (s.setStatus v).r = s.r := rfl
@[simp] theorem setStatus_l (s : State) (v : Status) : (s.setStatus v).l = s.l := rfl
@[simp] theorem setStatus_flags (s : State) (v : Status) : (s.setStatus v).flags = s.flags := rfl
@[simp] theorem setStatus_dx (s : State) (v : Status) : (s.setStatus v).dx = s.dx := rfl
@[simp] theorem setStatus_nsh (s : State) (v : Status) : (s.setStatus v).nsh = s.nsh := rfl
@[simp] theorem setStatus_status (s : State) (v : Status) : (s.setStatus v).status = v := rfl
@[simp] theorem setStatus_cap (s : State) (v : Status) : (s.setStatus v).cap = s.cap := rfl
@[simp] theorem setStatus_rx (s : State) (v : Status) : (s.setStatus v).rx = s.rx := rfl
@[simp] theorem setStatus_rlen (s : State) (v : Status) : (s.setStatus v).rlen = s.rlen := rfl
@[simp] theorem setStatus_mem (s : State) (v : Status) : (s.setStatus v).mem = s.mem := rfl
@[simp] theorem setStatus_base (s : State) (v : Status) : (s.setStatus v).base = s.base := rfl
@[simp] theorem setStatus_host (s : State) (v : Status) : (s.setStatus v).host = s.host := rfl
@[simp] theorem setStatus_epoch (s : State) (v : Status) : (s.setStatus v).epoch = s.epoch := rfl
@[simp] theorem setStatus_draws (s : State) (v : Status) : (s.setStatus v).draws = s.draws := rfl
@[simp] theorem setStatus_nMax (s : State) (v : Status) : (s.setStatus v).nMax = s.nMax := rfl
@[simp] theorem setStatus_mMax (s : State) (v : Status) : (s.setStatus v).mMax = s.mMax := rfl
@[simp] theorem setStatus_byteAt (s : State) (v : Status) (off : Nat) : (s.setStatus v).byteAt off = s.byteAt off := rfl
@[simp] theorem setStatus_sx (s : State) (v : Status) (i : Nat) : (s.setStatus v).sx i = s.sx i := rfl
@[simp] theorem setStatus_slen (s : State) (v : Status) (i : Nat) : (s.setStatus v).slen i = s.slen i := rfl
@[simp] theorem setStatus_ry (s : State) (v : Status) (i : Nat) : (s.setStatus v).ry i = s.ry i := rfl
@[simp] theorem setStatus_sy (s : State) (v : Status) (i j : Nat) : (s.setStatus v).sy i j = s.sy i j := rfl

/-! ### putByte -/

@[simp] theorem putByte_a (s : State) (o : Nat) (v : BitVec 8) : (s.putByte o v).a = s.a := rfl
@[simp] theorem putByte_b (s : State) (o : Nat) (v : BitVec 8) : (s.putByte o v).b = s.b := rfl
@[simp] theorem putByte_e (s : State) (o : Nat) (v : BitVec 8) : (s.putByte o v).e = s.e := rfl
@[simp] theorem putByte_r (s : State) (o : Nat) (v : BitVec 8) : (s.putByte o v).r = s.r := rfl
@[simp] theorem putByte_l (s : State) (o : Nat) (v : BitVec 8) : (s.putByte o v).l = s.l := rfl
@[simp] theorem putByte_flags (s : State) (o : Nat) (v : BitVec 8) : (s.putByte o v).flags = s.flags := rfl
@[simp] theorem putByte_dx (s : State) (o : Nat) (v : BitVec 8) : (s.putByte o v).dx = s.dx := rfl
@[simp] theorem putByte_nsh (s : State) (o : Nat) (v : BitVec 8) : (s.putByte o v).nsh = s.nsh := rfl
@[simp] theorem putByte_status (s : State) (o : Nat) (v : BitVec 8) : (s.putByte o v).status = s.status := rfl
@[simp] theorem putByte_cap (s : State) (o : Nat) (v : BitVec 8) : (s.putByte o v).cap = s.cap := rfl
@[simp] theorem putByte_rx (s : State) (o : Nat) (v : BitVec 8) : (s.putByte o v).rx = s.rx := rfl
@[simp] theorem putByte_rlen (s : State) (o : Nat) (v : BitVec 8) : (s.putByte o v).rlen = s.rlen := rfl
@[simp] theorem putByte_mem (s : State) (o : Nat) (v : BitVec 8) : (s.putByte o v).mem = memPut s.mem o v := rfl
@[simp] theorem putByte_base (s : State) (o : Nat) (v : BitVec 8) : (s.putByte o v).base = s.base := rfl
@[simp] theorem putByte_host (s : State) (o : Nat) (v : BitVec 8) : (s.putByte o v).host = s.host := rfl
@[simp] theorem putByte_epoch (s : State) (o : Nat) (v : BitVec 8) : (s.putByte o v).epoch = s.epoch := rfl
@[simp] theorem putByte_draws (s : State) (o : Nat) (v : BitVec 8) : (s.putByte o v).draws = s.draws := rfl
@[simp] theorem putByte_nMax (s : State) (o : Nat) (v : BitVec 8) : (s.putByte o v).nMax = s.nMax := rfl
@[simp] theorem putByte_mMax (s : State) (o : Nat) (v : BitVec 8) : (s.putByte o v).mMax = s.mMax := rfl

/-! ### putHalf -/

@[simp] theorem putHalf_a (s : State) (o : Nat) (v : Half) : (s.putHalf o v).a = s.a := rfl
@[simp] theorem putHalf_b (s : State) (o : Nat) (v : Half) : (s.putHalf o v).b = s.b := rfl
@[simp] theorem putHalf_e (s : State) (o : Nat) (v : Half) : (s.putHalf o v).e = s.e := rfl
@[simp] theorem putHalf_r (s : State) (o : Nat) (v : Half) : (s.putHalf o v).r = s.r := rfl
@[simp] theorem putHalf_l (s : State) (o : Nat) (v : Half) : (s.putHalf o v).l = s.l := rfl
@[simp] theorem putHalf_flags (s : State) (o : Nat) (v : Half) : (s.putHalf o v).flags = s.flags := rfl
@[simp] theorem putHalf_dx (s : State) (o : Nat) (v : Half) : (s.putHalf o v).dx = s.dx := rfl
@[simp] theorem putHalf_nsh (s : State) (o : Nat) (v : Half) : (s.putHalf o v).nsh = s.nsh := rfl
@[simp] theorem putHalf_status (s : State) (o : Nat) (v : Half) : (s.putHalf o v).status = s.status := rfl
@[simp] theorem putHalf_cap (s : State) (o : Nat) (v : Half) : (s.putHalf o v).cap = s.cap := rfl
@[simp] theorem putHalf_rx (s : State) (o : Nat) (v : Half) : (s.putHalf o v).rx = s.rx := rfl
@[simp] theorem putHalf_rlen (s : State) (o : Nat) (v : Half) : (s.putHalf o v).rlen = s.rlen := rfl
@[simp] theorem putHalf_mem (s : State) (o : Nat) (v : Half) : (s.putHalf o v).mem = memPut (memPut s.mem o (v.extractLsb' 0 8)) (o + 1) (v.extractLsb' 8 8) := rfl
@[simp] theorem putHalf_base (s : State) (o : Nat) (v : Half) : (s.putHalf o v).base = s.base := rfl
@[simp] theorem putHalf_host (s : State) (o : Nat) (v : Half) : (s.putHalf o v).host = s.host := rfl
@[simp] theorem putHalf_epoch (s : State) (o : Nat) (v : Half) : (s.putHalf o v).epoch = s.epoch := rfl
@[simp] theorem putHalf_draws (s : State) (o : Nat) (v : Half) : (s.putHalf o v).draws = s.draws := rfl
@[simp] theorem putHalf_nMax (s : State) (o : Nat) (v : Half) : (s.putHalf o v).nMax = s.nMax := rfl
@[simp] theorem putHalf_mMax (s : State) (o : Nat) (v : Half) : (s.putHalf o v).mMax = s.mMax := rfl

/-! ### setResult -/

@[simp] theorem setResult_a (s : State) (x : Elem) (n : Half) (ys : List Elem) : (s.setResult x n ys).a = s.a := rfl
@[simp] theorem setResult_b (s : State) (x : Elem) (n : Half) (ys : List Elem) : (s.setResult x n ys).b = s.b := rfl
@[simp] theorem setResult_e (s : State) (x : Elem) (n : Half) (ys : List Elem) : (s.setResult x n ys).e = s.e := rfl
@[simp] theorem setResult_r (s : State) (x : Elem) (n : Half) (ys : List Elem) : (s.setResult x n ys).r = s.r := rfl
@[simp] theorem setResult_l (s : State) (x : Elem) (n : Half) (ys : List Elem) : (s.setResult x n ys).l = s.l := rfl
@[simp] theorem setResult_flags (s : State) (x : Elem) (n : Half) (ys : List Elem) : (s.setResult x n ys).flags = s.flags := rfl
@[simp] theorem setResult_dx (s : State) (x : Elem) (n : Half) (ys : List Elem) : (s.setResult x n ys).dx = s.dx := rfl
@[simp] theorem setResult_nsh (s : State) (x : Elem) (n : Half) (ys : List Elem) : (s.setResult x n ys).nsh = s.nsh := rfl
@[simp] theorem setResult_status (s : State) (x : Elem) (n : Half) (ys : List Elem) : (s.setResult x n ys).status = s.status := rfl
@[simp] theorem setResult_cap (s : State) (x : Elem) (n : Half) (ys : List Elem) : (s.setResult x n ys).cap = s.cap := rfl
@[simp] theorem setResult_rx (s : State) (x : Elem) (n : Half) (ys : List Elem) : (s.setResult x n ys).rx = x := rfl
@[simp] theorem setResult_rlen (s : State) (x : Elem) (n : Half) (ys : List Elem) : (s.setResult x n ys).rlen = n := rfl
@[simp] theorem setResult_mem (s : State) (x : Elem) (n : Half) (ys : List Elem) : (s.setResult x n ys).mem = memPutElems s.mem ryBase ys := rfl
@[simp] theorem setResult_base (s : State) (x : Elem) (n : Half) (ys : List Elem) : (s.setResult x n ys).base = s.base := rfl
@[simp] theorem setResult_host (s : State) (x : Elem) (n : Half) (ys : List Elem) : (s.setResult x n ys).host = s.host := rfl
@[simp] theorem setResult_epoch (s : State) (x : Elem) (n : Half) (ys : List Elem) : (s.setResult x n ys).epoch = s.epoch := rfl
@[simp] theorem setResult_draws (s : State) (x : Elem) (n : Half) (ys : List Elem) : (s.setResult x n ys).draws = s.draws := rfl
@[simp] theorem setResult_nMax (s : State) (x : Elem) (n : Half) (ys : List Elem) : (s.setResult x n ys).nMax = s.nMax := rfl
@[simp] theorem setResult_mMax (s : State) (x : Elem) (n : Half) (ys : List Elem) : (s.setResult x n ys).mMax = s.mMax := rfl

/-! ### countDraw -/

@[simp] theorem countDraw_a (s : State) : (s.countDraw).a = s.a := rfl
@[simp] theorem countDraw_b (s : State) : (s.countDraw).b = s.b := rfl
@[simp] theorem countDraw_e (s : State) : (s.countDraw).e = s.e := rfl
@[simp] theorem countDraw_r (s : State) : (s.countDraw).r = s.r := rfl
@[simp] theorem countDraw_l (s : State) : (s.countDraw).l = s.l := rfl
@[simp] theorem countDraw_flags (s : State) : (s.countDraw).flags = s.flags := rfl
@[simp] theorem countDraw_dx (s : State) : (s.countDraw).dx = s.dx := rfl
@[simp] theorem countDraw_nsh (s : State) : (s.countDraw).nsh = s.nsh := rfl
@[simp] theorem countDraw_status (s : State) : (s.countDraw).status = s.status := rfl
@[simp] theorem countDraw_cap (s : State) : (s.countDraw).cap = s.cap := rfl
@[simp] theorem countDraw_rx (s : State) : (s.countDraw).rx = s.rx := rfl
@[simp] theorem countDraw_rlen (s : State) : (s.countDraw).rlen = s.rlen := rfl
@[simp] theorem countDraw_mem (s : State) : (s.countDraw).mem = s.mem := rfl
@[simp] theorem countDraw_base (s : State) : (s.countDraw).base = s.base := rfl
@[simp] theorem countDraw_host (s : State) : (s.countDraw).host = s.host := rfl
@[simp] theorem countDraw_epoch (s : State) : (s.countDraw).epoch = s.epoch := rfl
@[simp] theorem countDraw_draws (s : State) : (s.countDraw).draws = s.draws + 1 := rfl
@[simp] theorem countDraw_nMax (s : State) : (s.countDraw).nMax = s.nMax := rfl
@[simp] theorem countDraw_mMax (s : State) : (s.countDraw).mMax = s.mMax := rfl
@[simp] theorem countDraw_byteAt (s : State) (off : Nat) : (s.countDraw).byteAt off = s.byteAt off := rfl
@[simp] theorem countDraw_sx (s : State) (i : Nat) : (s.countDraw).sx i = s.sx i := rfl
@[simp] theorem countDraw_slen (s : State) (i : Nat) : (s.countDraw).slen i = s.slen i := rfl
@[simp] theorem countDraw_ry (s : State) (i : Nat) : (s.countDraw).ry i = s.ry i := rfl
@[simp] theorem countDraw_sy (s : State) (i j : Nat) : (s.countDraw).sy i j = s.sy i j := rfl

/-! ### advanceHost -/

@[simp] theorem advanceHost_a (s : State) : (s.advanceHost).a = s.a := rfl
@[simp] theorem advanceHost_b (s : State) : (s.advanceHost).b = s.b := rfl
@[simp] theorem advanceHost_e (s : State) : (s.advanceHost).e = s.e := rfl
@[simp] theorem advanceHost_r (s : State) : (s.advanceHost).r = s.r := rfl
@[simp] theorem advanceHost_l (s : State) : (s.advanceHost).l = s.l := rfl
@[simp] theorem advanceHost_flags (s : State) : (s.advanceHost).flags = s.flags := rfl
@[simp] theorem advanceHost_dx (s : State) : (s.advanceHost).dx = s.dx := rfl
@[simp] theorem advanceHost_nsh (s : State) : (s.advanceHost).nsh = s.nsh := rfl
@[simp] theorem advanceHost_status (s : State) : (s.advanceHost).status = s.status := rfl
@[simp] theorem advanceHost_cap (s : State) : (s.advanceHost).cap = s.cap := rfl
@[simp] theorem advanceHost_rx (s : State) : (s.advanceHost).rx = s.rx := rfl
@[simp] theorem advanceHost_rlen (s : State) : (s.advanceHost).rlen = s.rlen := rfl
@[simp] theorem advanceHost_mem (s : State) : (s.advanceHost).mem = s.mem := rfl
@[simp] theorem advanceHost_base (s : State) : (s.advanceHost).base = s.base := rfl
@[simp] theorem advanceHost_host (s : State) : (s.advanceHost).host = { s.host with index := s.host.index + 1 } := rfl
@[simp] theorem advanceHost_epoch (s : State) : (s.advanceHost).epoch = s.epoch := rfl
@[simp] theorem advanceHost_draws (s : State) : (s.advanceHost).draws = s.draws := rfl
@[simp] theorem advanceHost_nMax (s : State) : (s.advanceHost).nMax = s.nMax := rfl
@[simp] theorem advanceHost_mMax (s : State) : (s.advanceHost).mMax = s.mMax := rfl
@[simp] theorem advanceHost_byteAt (s : State) (off : Nat) : (s.advanceHost).byteAt off = s.byteAt off := rfl
@[simp] theorem advanceHost_sx (s : State) (i : Nat) : (s.advanceHost).sx i = s.sx i := rfl
@[simp] theorem advanceHost_slen (s : State) (i : Nat) : (s.advanceHost).slen i = s.slen i := rfl
@[simp] theorem advanceHost_ry (s : State) (i : Nat) : (s.advanceHost).ry i = s.ry i := rfl
@[simp] theorem advanceHost_sy (s : State) (i j : Nat) : (s.advanceHost).sy i j = s.sy i j := rfl

/-! ### returnRead -/

@[simp] theorem returnRead_a (s : State) (w : Word) : (s.returnRead w).a = s.a := rfl
@[simp] theorem returnRead_b (s : State) (w : Word) : (s.returnRead w).b = s.b := rfl
@[simp] theorem returnRead_e (s : State) (w : Word) : (s.returnRead w).e = s.e := rfl
@[simp] theorem returnRead_r (s : State) (w : Word) : (s.returnRead w).r = s.r := rfl
@[simp] theorem returnRead_l (s : State) (w : Word) : (s.returnRead w).l = s.l := rfl
@[simp] theorem returnRead_flags (s : State) (w : Word) : (s.returnRead w).flags = s.flags := rfl
@[simp] theorem returnRead_dx (s : State) (w : Word) : (s.returnRead w).dx = s.dx := rfl
@[simp] theorem returnRead_nsh (s : State) (w : Word) : (s.returnRead w).nsh = s.nsh := rfl
@[simp] theorem returnRead_status (s : State) (w : Word) : (s.returnRead w).status = s.status := rfl
@[simp] theorem returnRead_cap (s : State) (w : Word) : (s.returnRead w).cap = s.cap := rfl
@[simp] theorem returnRead_rx (s : State) (w : Word) : (s.returnRead w).rx = s.rx := rfl
@[simp] theorem returnRead_rlen (s : State) (w : Word) : (s.returnRead w).rlen = s.rlen := rfl
@[simp] theorem returnRead_mem (s : State) (w : Word) : (s.returnRead w).mem = s.mem := rfl
@[simp] theorem returnRead_base (s : State) (w : Word) : (s.returnRead w).base = s.base := rfl
@[simp] theorem returnRead_host (s : State) (w : Word) : (s.returnRead w).host = { s.host with returned := s.host.returned ++ [w] } := rfl
@[simp] theorem returnRead_epoch (s : State) (w : Word) : (s.returnRead w).epoch = s.epoch := rfl
@[simp] theorem returnRead_draws (s : State) (w : Word) : (s.returnRead w).draws = s.draws := rfl
@[simp] theorem returnRead_nMax (s : State) (w : Word) : (s.returnRead w).nMax = s.nMax := rfl
@[simp] theorem returnRead_mMax (s : State) (w : Word) : (s.returnRead w).mMax = s.mMax := rfl
@[simp] theorem returnRead_byteAt (s : State) (w : Word) (off : Nat) : (s.returnRead w).byteAt off = s.byteAt off := rfl
@[simp] theorem returnRead_sx (s : State) (w : Word) (i : Nat) : (s.returnRead w).sx i = s.sx i := rfl
@[simp] theorem returnRead_slen (s : State) (w : Word) (i : Nat) : (s.returnRead w).slen i = s.slen i := rfl
@[simp] theorem returnRead_ry (s : State) (w : Word) (i : Nat) : (s.returnRead w).ry i = s.ry i := rfl
@[simp] theorem returnRead_sy (s : State) (w : Word) (i j : Nat) : (s.returnRead w).sy i j = s.sy i j := rfl

/-! ### succeed -/

@[simp] theorem succeed_a (s : State) : (s.succeed).a = s.a := rfl
@[simp] theorem succeed_b (s : State) : (s.succeed).b = s.b := rfl
@[simp] theorem succeed_e (s : State) : (s.succeed).e = s.e := rfl
@[simp] theorem succeed_r (s : State) : (s.succeed).r = s.r := rfl
@[simp] theorem succeed_l (s : State) : (s.succeed).l = s.l := rfl
@[simp] theorem succeed_flags (s : State) : (s.succeed).flags = s.flags := rfl
@[simp] theorem succeed_dx (s : State) : (s.succeed).dx = s.dx := rfl
@[simp] theorem succeed_nsh (s : State) : (s.succeed).nsh = s.nsh := rfl
@[simp] theorem succeed_status (s : State) : (s.succeed).status = { s.status with code := 0 } := rfl
@[simp] theorem succeed_cap (s : State) : (s.succeed).cap = s.cap := rfl
@[simp] theorem succeed_rx (s : State) : (s.succeed).rx = s.rx := rfl
@[simp] theorem succeed_rlen (s : State) : (s.succeed).rlen = s.rlen := rfl
@[simp] theorem succeed_mem (s : State) : (s.succeed).mem = s.mem := rfl
@[simp] theorem succeed_base (s : State) : (s.succeed).base = s.base := rfl
@[simp] theorem succeed_host (s : State) : (s.succeed).host = s.host := rfl
@[simp] theorem succeed_epoch (s : State) : (s.succeed).epoch = s.epoch := rfl
@[simp] theorem succeed_draws (s : State) : (s.succeed).draws = s.draws := rfl
@[simp] theorem succeed_nMax (s : State) : (s.succeed).nMax = s.nMax := rfl
@[simp] theorem succeed_mMax (s : State) : (s.succeed).mMax = s.mMax := rfl
@[simp] theorem succeed_byteAt (s : State) (off : Nat) : (s.succeed).byteAt off = s.byteAt off := rfl
@[simp] theorem succeed_sx (s : State) (i : Nat) : (s.succeed).sx i = s.sx i := rfl
@[simp] theorem succeed_slen (s : State) (i : Nat) : (s.succeed).slen i = s.slen i := rfl
@[simp] theorem succeed_ry (s : State) (i : Nat) : (s.succeed).ry i = s.ry i := rfl
@[simp] theorem succeed_sy (s : State) (i j : Nat) : (s.succeed).sy i j = s.sy i j := rfl

/-! ### raise -/

@[simp] theorem raise_a (s : State) (f : Failure) : (s.raise f).a = s.a := rfl
@[simp] theorem raise_b (s : State) (f : Failure) : (s.raise f).b = s.b := rfl
@[simp] theorem raise_e (s : State) (f : Failure) : (s.raise f).e = s.e := rfl
@[simp] theorem raise_r (s : State) (f : Failure) : (s.raise f).r = s.r := rfl
@[simp] theorem raise_l (s : State) (f : Failure) : (s.raise f).l = s.l := rfl
@[simp] theorem raise_flags (s : State) (f : Failure) : (s.raise f).flags = s.flags := rfl
@[simp] theorem raise_dx (s : State) (f : Failure) : (s.raise f).dx = s.dx := rfl
@[simp] theorem raise_nsh (s : State) (f : Failure) : (s.raise f).nsh = s.nsh := rfl
@[simp] theorem raise_status (s : State) (f : Failure) : (s.raise f).status = ⟨failureCode f, true⟩ := rfl
@[simp] theorem raise_cap (s : State) (f : Failure) : (s.raise f).cap = s.cap := rfl
@[simp] theorem raise_rx (s : State) (f : Failure) : (s.raise f).rx = s.rx := rfl
@[simp] theorem raise_rlen (s : State) (f : Failure) : (s.raise f).rlen = s.rlen := rfl
@[simp] theorem raise_mem (s : State) (f : Failure) : (s.raise f).mem = s.mem := rfl
@[simp] theorem raise_base (s : State) (f : Failure) : (s.raise f).base = s.base := rfl
@[simp] theorem raise_host (s : State) (f : Failure) : (s.raise f).host = s.host := rfl
@[simp] theorem raise_epoch (s : State) (f : Failure) : (s.raise f).epoch = s.epoch := rfl
@[simp] theorem raise_draws (s : State) (f : Failure) : (s.raise f).draws = s.draws := rfl
@[simp] theorem raise_nMax (s : State) (f : Failure) : (s.raise f).nMax = s.nMax := rfl
@[simp] theorem raise_mMax (s : State) (f : Failure) : (s.raise f).mMax = s.mMax := rfl
@[simp] theorem raise_byteAt (s : State) (f : Failure) (off : Nat) : (s.raise f).byteAt off = s.byteAt off := rfl
@[simp] theorem raise_sx (s : State) (f : Failure) (i : Nat) : (s.raise f).sx i = s.sx i := rfl
@[simp] theorem raise_slen (s : State) (f : Failure) (i : Nat) : (s.raise f).slen i = s.slen i := rfl
@[simp] theorem raise_ry (s : State) (f : Failure) (i : Nat) : (s.raise f).ry i = s.ry i := rfl
@[simp] theorem raise_sy (s : State) (f : Failure) (i j : Nat) : (s.raise f).sy i j = s.sy i j := rfl

/-! ### clearSticky -/

@[simp] theorem clearSticky_a (s : State) (w : Word) : (s.clearSticky w).a = s.a := rfl
@[simp] theorem clearSticky_b (s : State) (w : Word) : (s.clearSticky w).b = s.b := rfl
@[simp] theorem clearSticky_e (s : State) (w : Word) : (s.clearSticky w).e = s.e := rfl
@[simp] theorem clearSticky_r (s : State) (w : Word) : (s.clearSticky w).r = s.r := rfl
@[simp] theorem clearSticky_l (s : State) (w : Word) : (s.clearSticky w).l = s.l := rfl
@[simp] theorem clearSticky_flags (s : State) (w : Word) : (s.clearSticky w).flags = s.flags := rfl
@[simp] theorem clearSticky_dx (s : State) (w : Word) : (s.clearSticky w).dx = s.dx := rfl
@[simp] theorem clearSticky_nsh (s : State) (w : Word) : (s.clearSticky w).nsh = s.nsh := rfl
@[simp] theorem clearSticky_status (s : State) (w : Word) : (s.clearSticky w).status = { s.status with estky := s.status.estky && !w.getLsbD 4 } := rfl
@[simp] theorem clearSticky_cap (s : State) (w : Word) : (s.clearSticky w).cap = s.cap := rfl
@[simp] theorem clearSticky_rx (s : State) (w : Word) : (s.clearSticky w).rx = s.rx := rfl
@[simp] theorem clearSticky_rlen (s : State) (w : Word) : (s.clearSticky w).rlen = s.rlen := rfl
@[simp] theorem clearSticky_mem (s : State) (w : Word) : (s.clearSticky w).mem = s.mem := rfl
@[simp] theorem clearSticky_base (s : State) (w : Word) : (s.clearSticky w).base = s.base := rfl
@[simp] theorem clearSticky_host (s : State) (w : Word) : (s.clearSticky w).host = s.host := rfl
@[simp] theorem clearSticky_epoch (s : State) (w : Word) : (s.clearSticky w).epoch = s.epoch := rfl
@[simp] theorem clearSticky_draws (s : State) (w : Word) : (s.clearSticky w).draws = s.draws := rfl
@[simp] theorem clearSticky_nMax (s : State) (w : Word) : (s.clearSticky w).nMax = s.nMax := rfl
@[simp] theorem clearSticky_mMax (s : State) (w : Word) : (s.clearSticky w).mMax = s.mMax := rfl
@[simp] theorem clearSticky_byteAt (s : State) (w : Word) (off : Nat) : (s.clearSticky w).byteAt off = s.byteAt off := rfl
@[simp] theorem clearSticky_sx (s : State) (w : Word) (i : Nat) : (s.clearSticky w).sx i = s.sx i := rfl
@[simp] theorem clearSticky_slen (s : State) (w : Word) (i : Nat) : (s.clearSticky w).slen i = s.slen i := rfl
@[simp] theorem clearSticky_ry (s : State) (w : Word) (i : Nat) : (s.clearSticky w).ry i = s.ry i := rfl
@[simp] theorem clearSticky_sy (s : State) (w : Word) (i j : Nat) : (s.clearSticky w).sy i j = s.sy i j := rfl

end Sys2Proof.Machine
end

