-- ==== Sys2Proof/Laws/Memory.lean ====
section
/-! SUPPORT. The laws of the byte memory: a read after a write, and that every memory operation keeps the canonical
form. -/

namespace Sys2Proof.Machine

theorem memory_wf_iff (m : Memory) : Memory.wf m = true ↔ m.Pairwise fun p q => p.1 < q.1 := by
  simp [Memory.wf]

theorem memGet_memPut_same (m : Memory) (off : Nat) (v : BitVec 8) : memGet (memPut m off v) off = some v := by
  induction m with
  | nil => simp [memPut, memGet]
  | cons p m ih =>
    obtain ⟨a, w⟩ := p
    simp only [memPut]
    split
    · simp [memGet]
    · split
      · simp [memGet]
      · rename_i h
        simp [memGet, Ne.symm h, ih]

theorem memGet_memPut_other (m : Memory) {off off' : Nat} (v : BitVec 8) (h : off' ≠ off) :
    memGet (memPut m off v) off' = memGet m off' := by
  induction m with
  | nil => simp [memPut, memGet, Ne.symm h]
  | cons p m ih =>
    obtain ⟨a, w⟩ := p
    simp only [memPut]
    split
    · simp [memGet, Ne.symm h]
    · split
      · rename_i e
        subst e
        simp [memGet, Ne.symm h]
      · simp [memGet, ih]

/-- The offsets listed after a write are the old ones and the one written. -/
theorem mem_memPut {m : Memory} {off : Nat} {v : BitVec 8} {p : Host.Cell} (h : p ∈ memPut m off v) :
    p ∈ m ∨ p = (off, v) := by
  induction m with
  | nil => simpa [memPut] using h
  | cons q m ih =>
    obtain ⟨a, w⟩ := q
    simp only [memPut] at h
    split at h
    · simp only [List.mem_cons] at h ⊢
      tauto
    · split at h
      · simp only [List.mem_cons] at h ⊢
        tauto
      · simp only [List.mem_cons] at h ⊢
        rcases h with h | h
        · exact .inl (.inl h)
        · rcases ih h with h | h
          · exact .inl (.inr h)
          · exact .inr h

theorem memPut_keeps_wf {m : Memory} (off : Nat) (v : BitVec 8) (h : Memory.wf m = true) :
    Memory.wf (memPut m off v) = true := by
  rw [memory_wf_iff] at *
  induction m with
  | nil => simp [memPut]
  | cons p m ih =>
    obtain ⟨a, w⟩ := p
    rw [List.pairwise_cons] at h
    obtain ⟨hlt, hm⟩ := h
    simp only [memPut]
    split
    · rename_i hoff
      refine List.pairwise_cons.2 ⟨?_, List.pairwise_cons.2 ⟨hlt, hm⟩⟩
      intro q hq
      rcases List.mem_cons.1 hq with rfl | hq
      · exact hoff
      · exact lt_trans hoff (hlt q hq)
    · split
      · rename_i e
        subst e
        exact List.pairwise_cons.2 ⟨hlt, hm⟩
      · refine List.pairwise_cons.2 ⟨?_, ih hm⟩
        intro q hq
        rcases mem_memPut hq with hq | rfl
        · exact hlt q hq
        · show a < off
          omega

theorem memPutElems_keeps_wf {m : Memory} (off : Nat) (ys : List Elem) (h : Memory.wf m = true) :
    Memory.wf (memPutElems m off ys) = true := by
  induction ys generalizing m off with
  | nil => exact h
  | cons y ys ih => exact ih _ (memPut_keeps_wf _ _ h)

/-- The cells listed after an element list is written are old ones or lie at the words written. -/
theorem mem_memPutElems {m : Memory} {off : Nat} {ys : List Elem} {p : Host.Cell}
    (h : p ∈ memPutElems m off ys) : p ∈ m ∨ ∃ j, j < ys.length ∧ p.1 = off + 4 * j := by
  induction ys generalizing m off with
  | nil => exact .inl h
  | cons y ys ih =>
    rcases ih h with h | ⟨j, hj, e⟩
    · rcases mem_memPut h with h | rfl
      · exact .inl h
      · exact .inr ⟨0, by simp, by simp⟩
    · exact .inr ⟨j + 1, by simpa using hj, by omega⟩

theorem memGet_memPutElems_outside (m : Memory) (off : Nat) (ys : List Elem) (off' : Nat)
    (h : ∀ j, j < ys.length → off' ≠ off + 4 * j) : memGet (memPutElems m off ys) off' = memGet m off' := by
  induction ys generalizing m off with
  | nil => rfl
  | cons y ys ih =>
    rw [memPutElems, ih]
    · exact memGet_memPut_other _ _ (by simpa using h 0 (by simp))
    · intro j hj
      have := h (j + 1) (by simpa using hj)
      omega

theorem memGet_memPutElems_inside (m : Memory) (off : Nat) (ys : List Elem) (j : Nat) (h : j < ys.length) :
    memGet (memPutElems m off ys) (off + 4 * j) = some ys[j] := by
  induction ys generalizing m off j with
  | nil => simp at h
  | cons y ys ih =>
    cases j with
    | zero =>
      rw [memPutElems, memGet_memPutElems_outside]
      · simp [memGet_memPut_same]
      · intro k hk
        omega
    | succ j =>
      have e : off + 4 * (j + 1) = (off + 4) + 4 * j := by omega
      rw [memPutElems, e, ih _ _ _ (by simpa using h)]
      simp

/-! ### The same through the state's read of one byte -/

@[simp] theorem byteAt_putByte_same (s : State) (off : Nat) (v : BitVec 8) : (s.putByte off v).byteAt off = v := by
  simp [State.byteAt, memGet_memPut_same]

theorem byteAt_putByte_other (s : State) {off off' : Nat} (v : BitVec 8) (h : off' ≠ off) :
    (s.putByte off v).byteAt off' = s.byteAt off' := by
  simp [State.byteAt, memGet_memPut_other _ _ h]

theorem byteAt_putHalf_other (s : State) {off off' : Nat} (v : Half) (h : off' ≠ off) (h' : off' ≠ off + 1) :
    (s.putHalf off v).byteAt off' = s.byteAt off' := by
  simp [State.byteAt, memGet_memPut_other _ _ h, memGet_memPut_other _ _ h']

@[simp] theorem halfAt_putHalf_same (s : State) (off : Nat) (v : Half) : (s.putHalf off v).halfAt off = v := by
  have low : (s.putHalf off v).byteAt off = v.extractLsb' 0 8 := by
    simp [State.byteAt, memGet_memPut_other _ _ (show off ≠ off + 1 by omega), memGet_memPut_same]
  have high : (s.putHalf off v).byteAt (off + 1) = v.extractLsb' 8 8 := by
    simp [State.byteAt, memGet_memPut_same]
  rw [State.halfAt, low, high]
  ext i hi
  simp only [BitVec.getElem_append, BitVec.getElem_extractLsb']
  split
  · simp [BitVec.getLsbD_eq_getElem hi]
  · rw [show 8 + (i - 8) = i by omega, BitVec.getLsbD_eq_getElem hi]

theorem byteAt_setResult_outside (s : State) (x : Elem) (len : Half) (ys : List Elem) (off : Nat)
    (h : ∀ j, j < ys.length → off ≠ ryOffset j) : (s.setResult x len ys).byteAt off = s.byteAt off := by
  simp only [State.byteAt, setResult_mem, setResult_epoch]
  rw [memGet_memPutElems_outside _ _ _ _ h]

theorem ry_setResult_inside (s : State) (x : Elem) (len : Half) (ys : List Elem) (j : Nat) (h : j < ys.length) :
    (s.setResult x len ys).ry j = ys[j] := by
  simp only [State.ry, State.byteAt, setResult_mem, ryOffset]
  rw [memGet_memPutElems_inside _ _ _ _ h]

end Sys2Proof.Machine
end

