-- ==== Sys2Proof/Laws/Commands.lean ====
section
/-! SUPPORT. One lemma per shared operation that says everything it can do: the checks of INTERP, its short-circuit,
its duplicate test, INTERP itself, any command, any host write, and a step. -/

namespace Sys2Proof.Machine

/-! ### INTERP's phases -/

theorem any_slotLens (s : State) (n : Nat) (p : Half → Bool) :
    (s.slotLens n).any p = true ↔ ∃ i, i < n ∧ p (s.slen i) = true := by
  simp [State.slotLens, List.any_map, List.any_eq_true]

/-- The checks pass exactly under the four conditions of 43_interpolation.md R152. -/
theorem interpChecks_ok_iff (s : State) (m : Nat) :
    interpChecks s = .ok m ↔
      s.shareCount ≤ s.nMax ∧ 2 ≤ s.shareCount ∧ (∀ i, i < s.shareCount → (s.slen i).toNat ≤ s.mMax) ∧
        (∀ i, i < s.shareCount → s.slen i = s.slen 0) ∧ m = (s.slen 0).toNat := by
  have hcap := any_slotLens s s.shareCount fun len => decide (s.mMax < len.toNat)
  have hwidth := any_slotLens s s.shareCount fun len => decide (len ≠ s.slen 0)
  simp only [decide_eq_true_eq] at hcap hwidth
  unfold interpChecks
  dsimp only
  split
  · simp; omega
  split
  · simp; omega
  split
  · rename_i h
    obtain ⟨i, hi, hlt⟩ := hcap.1 h
    simp only [reduceCtorEq, false_iff, not_and]
    intro _ _ hall
    exact absurd (hall i hi) (by omega)
  split
  · rename_i h
    obtain ⟨i, hi, hne⟩ := hwidth.1 h
    simp only [reduceCtorEq, false_iff, not_and]
    intro _ _ _ hall
    exact absurd (hall i hi) hne
  · rename_i hn h2 hc hw
    rw [hcap] at hc
    rw [hwidth] at hw
    push Not at hc hw
    simp only [Except.ok.injEq]
    constructor
    · intro h
      exact ⟨by omega, by omega, hc, hw, h.symm⟩
    · intro h
      exact h.2.2.2.2.symm

theorem mem_matchingSlots (s : State) (n k : Nat) : k ∈ matchingSlots s n ↔ k < n ∧ s.sx k = s.dx := by
  simp [matchingSlots]

theorem matchingSlots_eq_nil (s : State) (n : Nat) : matchingSlots s n = [] ↔ ∀ k, k < n → s.sx k ≠ s.dx := by
  simp [matchingSlots, List.filter_eq_nil_iff]

/-- Whatever the free choice is, the slot returned is one of the matching slots. -/
theorem freeSlot_mem (s : State) (k : Nat) (ks : List Nat) : freeSlot s (k :: ks) k ∈ k :: ks := by
  have h : Config.freeChoice s.draws % (k :: ks).length < (k :: ks).length := Nat.mod_lt _ (by simp)
  simp only [freeSlot, List.getD_eq_getElem?_getD, List.getElem?_eq_getElem h, Option.getD_some]
  exact List.getElem_mem h

/-- The duplicate test finds a pair of different slots with equal x, if there is one (R155). -/
theorem hasDuplicateX_iff (s : State) (n : Nat) :
    hasDuplicateX (s.slotXs n) = true ↔ ∃ i k, i < k ∧ k < n ∧ s.sx i = s.sx k := by
  have h : hasDuplicateX (s.slotXs n) = true ↔ ¬ (s.slotXs n).Nodup := by simp [hasDuplicateX]
  rw [h, State.slotXs, List.nodup_iff_injective_getElem, Function.Injective]
  push Not
  constructor
  · rintro ⟨⟨i, hi⟩, ⟨k, hk⟩, he, hne⟩
    simp only [List.length_map, List.length_range] at hi hk
    simp only [List.getElem_map, List.getElem_range] at he
    have : i ≠ k := by simpa using hne
    rcases Nat.lt_or_gt_of_ne this with h | h
    · exact ⟨i, k, h, hk, he⟩
    · exact ⟨k, i, h, hi, he.symm⟩
  · rintro ⟨i, k, hik, hk, he⟩
    refine ⟨⟨i, by simp; omega⟩, ⟨k, by simpa using hk⟩, ?_, ?_⟩
    · simpa using he
    · simp; omega

/-- Everything INTERP can do: fail in a check, fail on a duplicate, write the interpolated share, or return a
matching share (the free choice counted when there are several). -/
theorem execInterp_cases (s : State) :
    (∃ f, interpChecks s = .error f ∧ execInterp s = .next (s.raise f)) ∨
    ∃ m, interpChecks s = .ok m ∧
      (((∀ k, k < s.shareCount → s.sx k ≠ s.dx) ∧
          (hasDuplicateX (s.slotXs s.shareCount) = true ∧ execInterp s = .next (s.raise .duplicateXValue) ∨
            hasDuplicateX (s.slotXs s.shareCount) = false ∧
              execInterp s =
                .next (s.setResult s.dx (BitVec.ofNat 16 m) (interpolatedYs s s.shareCount m)).succeed)) ∨
        ∃ k, k < s.shareCount ∧ s.sx k = s.dx ∧
          (execInterp s = .next (returnShare s k).succeed ∧ matchingSlots s s.shareCount = [k] ∨
            execInterp s = .next (returnShare s k).countDraw.succeed ∧
              2 ≤ (matchingSlots s s.shareCount).length)) := by
  unfold execInterp
  split
  · rename_i f hf
    exact .inl ⟨f, hf, rfl⟩
  · rename_i m hm
    refine .inr ⟨m, hm, ?_⟩
    dsimp only
    split
    · rename_i hk
      refine .inl ⟨(matchingSlots_eq_nil _ _).1 hk, ?_⟩
      split
      · rename_i hd
        exact .inl ⟨hd, rfl⟩
      · rename_i hd
        exact .inr ⟨by simpa using hd, rfl⟩
    · rename_i k hk
      have : k ∈ matchingSlots s s.shareCount := by simp [hk]
      obtain ⟨h1, h2⟩ := (mem_matchingSlots _ _ _).1 this
      exact .inr ⟨k, h1, h2, .inl ⟨rfl, hk⟩⟩
    · rename_i k k' ks hk
      have hmem := freeSlot_mem s k (k' :: ks)
      have h : freeSlot s (k :: k' :: ks) k ∈ matchingSlots s s.shareCount := by rw [hk]; exact hmem
      obtain ⟨h1, h2⟩ := (mem_matchingSlots _ _ _).1 h
      refine .inr ⟨_, h1, h2, .inr ⟨rfl, ?_⟩⟩
      rw [hk]
      simp

/-! ### Any command -/

theorem completeElem_cases (s : State) (o : Except Failure Elem) :
    (∃ v, o = .ok v ∧ completeElem s o = .next (s.setR v).succeed) ∨
      ∃ f, o = .error f ∧ completeElem s o = .next (s.raise f) := by
  cases o with
  | ok v => exact .inl ⟨v, rfl, rfl⟩
  | error f => exact .inr ⟨f, rfl, rfl⟩

/-- Everything a command can do: it fails, or it succeeds after writing `R`, or `L` (LOG), or `FLAGS` (TST, CMP), or
the result share (INTERP). -/
theorem exec_cases (i : Instr) (s : State) :
    (∃ f, exec i s = .next (s.raise f)) ∨
    (i ∈ [Instr.add, .sub, .mul, .div, .neg, .pos, .exp, .pow] ∧ ∃ v, exec i s = .next (s.setR v).succeed) ∨
    (i = .log ∧ s.a ≠ 0x00 ∧ exec i s = .next (s.setL (BitVec.ofNat 8 (logf s.a))).succeed) ∨
    (i = .tst ∧ exec i s = .next (s.setFlags (zeroFlags s.flags s.a)).succeed) ∨
    (i = .cmp ∧ exec i s = .next (s.setFlags (compareFlags s.flags s.a s.b)).succeed) ∨
    (i = .interp ∧ ∃ x len ys, ys.length = len.toNat ∧ len.toNat ≤ s.mMax ∧
      (exec i s = .next (s.setResult x len ys).succeed ∨
        exec i s = .next (s.setResult x len ys).countDraw.succeed)) := by
  cases i with
  | add => exact .inr (.inl ⟨by simp, _, rfl⟩)
  | sub => exact .inr (.inl ⟨by simp, _, rfl⟩)
  | mul => exact .inr (.inl ⟨by simp, _, rfl⟩)
  | neg => exact .inr (.inl ⟨by simp, _, rfl⟩)
  | pos => exact .inr (.inl ⟨by simp, _, rfl⟩)
  | exp => exact .inr (.inl ⟨by simp, _, rfl⟩)
  | tst => exact .inr (.inr (.inr (.inl ⟨rfl, rfl⟩)))
  | cmp => exact .inr (.inr (.inr (.inr (.inl ⟨rfl, rfl⟩))))
  | div =>
    rcases completeElem_cases s (gdiv s.operandA s.operandB) with ⟨v, -, h⟩ | ⟨f, -, h⟩
    · exact .inr (.inl ⟨by simp, v, h⟩)
    · exact .inl ⟨f, h⟩
  | pow =>
    rcases completeElem_cases s (gpow s.operandA s.exponent) with ⟨v, -, h⟩ | ⟨f, -, h⟩
    · exact .inr (.inl ⟨by simp, v, h⟩)
    · exact .inl ⟨f, h⟩
  | log =>
    by_cases ha : s.operandA = 0x00
    · exact .inl ⟨.logOfZero, by simp [exec, execLog, ha, failed]⟩
    · exact .inr (.inr (.inl ⟨rfl, ha, by simp only [exec, execLog, ha]; rfl⟩))
  | interp =>
    rcases execInterp_cases s with ⟨f, -, h⟩ | ⟨m, hm, h⟩
    · exact .inl ⟨f, h⟩
    · obtain ⟨-, -, hcap, hwidth, hm0⟩ := (interpChecks_ok_iff s m).1 hm
      rcases h with ⟨-, ⟨-, h⟩ | ⟨-, h⟩⟩ | ⟨k, hk, -, h⟩
      · exact .inl ⟨_, h⟩
      · have hlt : m < 2 ^ 16 := hm0 ▸ (s.slen 0).isLt
        have hle : m ≤ s.mMax := by
          rw [interpChecks_ok_iff] at hm
          simpa [hm0] using hcap 0 (by omega)
        refine .inr (.inr (.inr (.inr (.inr ⟨rfl, _, _, _, ?_, ?_, .inl h⟩))))
        · rw [BitVec.toNat_ofNat, Nat.mod_eq_of_lt hlt]
          simp [interpolatedYs]
        · rwa [BitVec.toNat_ofNat, Nat.mod_eq_of_lt hlt]
      · refine .inr (.inr (.inr (.inr (.inr
          ⟨rfl, s.sx k, s.slen k, s.shareYs k (s.slen k).toNat, ?_, hcap k hk, ?_⟩))))
        · simp [State.shareYs]
        · rcases h with ⟨h, -⟩ | ⟨h, -⟩
          · exact .inl h
          · exact .inr h

/-- Issuing a word runs the command it decodes to, or fails with IllegalCommand (30_encoding.md R72). -/
theorem issue_cases (s : State) (w : Word) :
    (∃ i, decode w = .ok i ∧ issue s w = exec i s) ∨
      (∃ r, decode w = .error r) ∧ issue s w = .next (s.raise .illegalCommand) := by
  cases h : decode w with
  | ok i => exact .inl ⟨i, rfl, by simp [issue, h]⟩
  | error r => exact .inr ⟨⟨r, rfl⟩, by simp [issue, h, failed]⟩

/-! ### A step -/

theorem busTarget_next {s : State} {addr size : Nat} {loc : Location} (h : busTarget s addr size = .next loc) :
    s.base ≤ addr ∧ size = 4 ∧ (addr - s.base) % 4 = 0 ∧ locate s.nMax s.mMax (addr - s.base) = some loc := by
  unfold busTarget at h
  split at h
  · cases h
  · dsimp only at h
    split at h
    · cases h
    · split at h
      · cases h
      · split at h
        · cases h
          rename_i _ hs ha _ hl
          exact ⟨by omega, by omega, by omega, hl⟩
        · cases h

/-- Everything a step that answers a next state does: nothing when the host's list has ended; or, with the index
advanced, a reset, a read of a location, or a write to one. -/
theorem step_cases {s t : State} (h : step s = .next t) :
    (nextEvent s = none ∧ t = s) ∨
    (nextEvent s = some .reset ∧ t = resetUnit s.advanceHost) ∨
    (∃ addr size loc, nextEvent s = some (.read addr size) ∧ busTarget s.advanceHost addr size = .next loc ∧
      t = s.advanceHost.returnRead (readLocation s.advanceHost loc)) ∨
    (∃ addr size w loc, nextEvent s = some (.write addr size w) ∧
      busTarget s.advanceHost addr size = .next loc ∧ writeLocation s.advanceHost w loc = .next t) := by
  unfold step at h
  split at h
  · rename_i hn
    cases h
    exact .inl ⟨hn, rfl⟩
  · rename_i ev hn
    cases ev with
    | reset =>
      cases h
      exact .inr (.inl ⟨hn, rfl⟩)
    | read addr size =>
      simp only [performEvent] at h
      split at h
      · rename_i loc hb
        cases h
        exact .inr (.inr (.inl ⟨addr, size, loc, hn, hb, rfl⟩))
      · cases h
      · cases h
    | write addr size w =>
      simp only [performEvent] at h
      split at h
      · rename_i loc hb
        exact .inr (.inr (.inr ⟨addr, size, w, loc, hn, hb, h⟩))
      · cases h
      · cases h

end Sys2Proof.Machine
end

