-- ==== Sys2Proof/Laws/PerInstr.lean ====
section
/-! SUPPORT. Per-command families: CommandWordLegal, the command word of each command passes both checks of
30_encoding.md R70, R75. -/

namespace Sys2Proof.Laws.CommandWordLegal

/-- The command is well-formed and its command word is a legal one. -/
def Statement (i : Instr) : Prop := i.wellFormed = true ∧ commandWordWellFormed (encode i) = true

theorem add : Statement .add := by unfold Statement; decide
theorem sub : Statement .sub := by unfold Statement; decide
theorem mul : Statement .mul := by unfold Statement; decide
theorem div : Statement .div := by unfold Statement; decide
theorem neg : Statement .neg := by unfold Statement; decide
theorem pos : Statement .pos := by unfold Statement; decide
theorem log : Statement .log := by unfold Statement; decide
theorem exp : Statement .exp := by unfold Statement; decide
theorem pow : Statement .pow := by unfold Statement; decide
theorem tst : Statement .tst := by unfold Statement; decide
theorem cmp : Statement .cmp := by unfold Statement; decide
theorem interp : Statement .interp := by unfold Statement; decide

end Sys2Proof.Laws.CommandWordLegal
end

