-- ==== Sys2Proof/Tests/Slice0.lean ====
section
/-! SUPPORT. Tests on single steps, with expected results from spec/95_test_vectors.md (the vector's id is in the
name) or worked out by hand from the rules, and for every statement that has hypotheses a witness that meets them. -/

namespace Sys2Proof.Tests

open Sys2Proof Sys2Proof.Machine

/-- The next state, if there is one. -/
def nextState : Host.Outcome State Fault Refusal → Option State
  | .next t => some t
  | .fault _ => none
  | .refused _ => none

/-- A field of the next state of a command. -/
def result {α : Type} (i : Instr) (s : State) (field : State → α) : Option α := (nextState (exec i s)).map field

/-- The reset state with `A` and `B` written. -/
def withAB (a b : Elem) : State := (State.reset.setA a).setB b

/-- The reset state with `A` and `E` written, and 77 in `R`, so that an unwritten `R` shows. -/
def withAE (a : Elem) (e : Word) : State := ((State.reset.setA a).setE e).setR 0x77

/-- A share written to a slot. -/
def putShare (s : State) (i : Nat) (x : Elem) (ys : List Elem) : State :=
  ys.zipIdx.foldl (fun s (y, j) => s.putByte (syOffset i j) y)
    ((s.putByte (sxOffset i) x).putHalf (slenOffset i) (BitVec.ofNat 16 ys.length))

/-- Shares in slots 0, 1, ..., with `NSH` their number and `DX` the destination. -/
def withShares (shares : List (Elem × List Elem)) (dx : Elem) : State :=
  shares.zipIdx.foldl (fun s (share, i) => putShare s i share.1 share.2)
    ((State.reset.setNsh (BitVec.ofNat 16 shares.length)).setDx dx)

/-- The two shares of the source's scenario S8. -/
def scenario (dx : Elem) : State := withShares [(0x01, [0x05]), (0x02, [0x09])] dx

/-- The reset state with a host list loaded. -/
def withProgram (events : List HostEvent) : State := State.reset.load events

/-! ### Well-formed words and the decoder -/

theorem test_zero_field_refuses : zeroFieldClear 0x00000103 = false := by decide
theorem test_opcode_refuses_00 : opcodeAssigned 0x00000000 = false := by decide
theorem test_opcode_refuses_0C : opcodeAssigned 0x0000000C = false := by decide
theorem test_opcode_refuses_11 : opcodeAssigned 0x00000011 = false := by decide
theorem test_word_refused_by_zero_field : commandWordWellFormed 0x80000010 = false := by decide
theorem test_word_accepted : commandWordWellFormed 0x0000000B = true := by decide

theorem test_decode_add : decode 0b00000000000000000000000000000001 = .ok .add := by decide
theorem test_decode_sub : decode 0b00000000000000000000000000000010 = .ok .sub := by decide
theorem test_decode_mul : decode 0b00000000000000000000000000000011 = .ok .mul := by decide
theorem test_decode_div : decode 0b00000000000000000000000000000100 = .ok .div := by decide
theorem test_decode_neg : decode 0b00000000000000000000000000000101 = .ok .neg := by decide
theorem test_decode_pos : decode 0b00000000000000000000000000000110 = .ok .pos := by decide
theorem test_decode_log : decode 0b00000000000000000000000000000111 = .ok .log := by decide
theorem test_decode_exp : decode 0b00000000000000000000000000001000 = .ok .exp := by decide
theorem test_decode_pow : decode 0b00000000000000000000000000001001 = .ok .pow := by decide
theorem test_decode_tst : decode 0b00000000000000000000000000001010 = .ok .tst := by decide
theorem test_decode_cmp : decode 0b00000000000000000000000000001011 = .ok .cmp := by decide
theorem test_decode_interp : decode 0b00000000000000000000000000010000 = .ok .interp := by decide
theorem test_decode_EN3_zero_word : decode 0x00000000 = .error .opcodeUnassigned := by decide
theorem test_decode_EN6_high_bit : decode 0x00000103 = .error .zeroFieldSet := by decide
theorem test_decode_EN8_all_ones : decode 0xFFFFFFFF = .error .zeroFieldSet := by decide
theorem test_decodeTableWord_interp : decodeTableWord 32 0x10 = some .interp := by decide

/-! ### Field commands -/

theorem test_add_AD2 : result .add (withAB 0x53 0xCA) (·.r) = some 0x99 := by decide
theorem test_sub_SB4 : result .sub (withAB 0x00 0x7E) (·.r) = some 0x7E := by decide
theorem test_neg_NG2 : result .neg (withAB 0x01 0x22) (·.r) = some 0x01 := by decide
theorem test_pos_PS2 : result .pos (withAB 0x7E 0x00) (·.r) = some 0x7E := by decide
theorem test_mul_ML14 : result .mul (withAB 0xF6 0xF6) (·.r) = some 0x52 := by decide
theorem test_mul_ML2 : result .mul (withAB 0x00 0x35) (·.r) = some 0x00 := by decide
theorem test_div_DV17 : result .div (withAB 0x01 0xF6) (·.r) = some 0x03 := by decide
theorem test_div_DV1 : result .div ((withAB 0x00 0x00).setR 0x77) (fun t => (t.r, t.status)) =
    some (0x77, ⟨1, true⟩) := by decide
theorem test_log_LG8 : result .log (withAB 0xCA 0x00) (·.l) = some 207 := by decide
theorem test_log_LG16 : result .log ((withAB 0x00 0x00).setL 77) (fun t => (t.l, t.status)) =
    some (77, ⟨2, true⟩) := by decide
theorem test_exp_EX13 : result .exp (withAE 0x00 0xFFFFFFFF) (·.r) = some 0xF6 := by decide
theorem test_exp_EX19 : result .exp (withAE 0x00 0x80000000) (·.r) = some 0xA0 := by decide
theorem test_pow_PW31 : result .pow (withAE 0xF6 254) (·.r) = some 0x03 := by decide
theorem test_pow_PW5 : result .pow (withAE 0x00 0xFFFFFFFF) (fun t => (t.r, t.status)) =
    some (0x77, ⟨3, true⟩) := by decide
theorem test_tst_TS1 : result .tst (withAB 0x00 0x00) (·.flags.toWord) = some 0x1 := by decide
theorem test_cmp_CP8 : result .cmp (withAB 0x80 0x7F) (·.flags.toWord) = some 0x8 := by decide

/-! ### INTERP -/

theorem test_interp_IN3 : result .interp (scenario 0x03) (fun t => (t.rx, t.rlen, t.ry 0, t.status)) =
    some (0x03, 1, 0x0D, ⟨0, false⟩) := by decide
theorem test_interp_IN2_short_circuit : result .interp (scenario 0x02) (fun t => (t.rx, t.rlen, t.ry 0)) =
    some (0x02, 1, 0x09) := by decide

/-! ### Host port -/

theorem test_write_HA1_narrow :
    (nextState (step (withProgram [.write 0x0008 4 0x00000153]))).map (·.a) = some 0x53 := by decide
theorem test_write_HA10_last_word :
    (nextState (step (withProgram [.write 0x10F404 4 0x00000ABC]))).map (fun t => t.sy 255 255) = some 0xBC := by
  decide
theorem test_read_HA6_cap :
    (nextState (step (withProgram [.read 0x0028 4]))).map (·.host.returned) = some [0x01000100] := by decide
theorem test_issue_RS4 : (nextState (step (withProgram [.write 0x0000 4 0x00000004]))).map
    (fun t => readLocation t .status) = some 0x11 := by decide
theorem test_withFetchWord_runs_exp :
    (nextState (step (State.reset.withFetchWord 32 0x08))).map (·.r) = some 0x01 := by decide
theorem test_status_RS11_write_one_to_clear :
    (nextState (writeLocation (State.reset.raise .divideByZero) 0x10 .status)).map (·.status) = some ⟨1, false⟩ := by
  decide
theorem test_reset_event : (nextState (step ((withAB 0x53 0xCA).load [.reset]))).map (fun t => (t.a, t.epoch)) =
    some (0x00, 1) := by decide
theorem test_below_base_is_not_the_units :
    busTarget { State.reset with base := 0x100000 } 0xFFFFC 4 = .refused .outsideUnit := rfl

/-! ### Witnesses of hypotheses, one for each clause at its boundary -/

theorem cap_ok : CapOk State.reset := by unfold CapOk; decide

theorem witness_EncodeDecodeRoundTrip : Instr.wellFormed .interp = true := by decide

theorem witness_IllegalWordsFailWithCode7 :
    commandWordWellFormed 0x0000000C = false ∧ commandWordWellFormed 0x00000100 = false ∧
      commandWordWellFormed 0x0000000B = true ∧ commandWordWellFormed 0x00000010 = true := by decide

theorem witness_StepRunsTheIssuedCommand :
    (Issues (withProgram [.write 0 4 0x00000003]) 0x00000003 ∧ decode 0x00000003 = .ok .mul) ∧
      Issues (withProgram [.write 0 4 0x00000103]) 0x00000103 ∧ ∀ i, decode 0x00000103 ≠ .ok i := by
  refine ⟨⟨by unfold Issues; decide, by decide⟩, by unfold Issues; decide, ?_⟩
  intro i
  cases i <;> decide

theorem witness_HostListRunsInOrder :
    (∃ t, step (withProgram [.read 0x0008 4]) = .next t) ∧
      (withProgram [.read 0x0008 4]).host.index < (withProgram [.read 0x0008 4]).host.program.length ∧
      step (withProgram []) = .next (withProgram []) ∧
      (withProgram []).host.program.length ≤ (withProgram []).host.index :=
  ⟨⟨_, rfl⟩, by decide, rfl, by decide⟩

theorem witness_DivIsExactOrFails :
    ((0x53 : Elem) ≠ 0x00 ∧ logf 0x53 ≤ logf 0x53) ∧ logf 0x01 < logf 0xF6 ∧ (withAB 0x07 0x00).b = 0x00 ∧
      (withAB 0x00 0x07).a = 0x00 ∧ (withAB 0x00 0x07).b ≠ 0x00 := by decide

theorem witness_MulIsPolynomialMultiplication :
    (withAB 0x35 0x00).b = 0x00 ∧ (withAB 0x00 0x35).a = 0x00 ∧ (withAB 0xF6 0xF6).a ≠ 0x00 ∧
      (withAB 0xF6 0xF6).b ≠ 0x00 := by decide

theorem witness_LogIsTheDiscreteLogarithm : (withAB 0xF6 0x00).a ≠ 0x00 ∧ (withAB 0x00 0x00).a = 0x00 := by decide

theorem witness_PowByCases :
    ((withAE 0x00 1).a = 0x00 ∧ 0 < (withAE 0x00 1).e.toInt) ∧
      ((withAE 0x00 0).a = 0x00 ∧ (withAE 0x00 0).e.toInt ≤ 0) ∧
      ((withAE 0x02 0xFFFFFF01).a ≠ 0x00 ∧ (withAE 0x02 0xFFFFFF01).e.toInt % 255 = 0) ∧
      ((withAE 0x02 0xFFFFFFFF).a ≠ 0x00 ∧ (withAE 0x02 0xFFFFFFFF).e.toInt % 255 ≠ 0) := by decide

theorem witness_TablesAreTheGeneratedOnes : 0 < 255 ∧ 254 < 255 := by decide

theorem witness_TablesAreMutualInverses : (0x01 : Elem) ≠ 0x00 ∧ (0xFF : Elem) ≠ 0x00 ∧ 254 ≤ 254 := by decide

theorem witness_MultiplicationLaws_DivisionLaws_LogarithmLaws_PowerLaws : (0x01 : Elem) ≠ 0x00 ∧ (0xF6 : Elem) ≠ 0x00 := by
  decide

theorem witness_LogarithmLaws : (0 : Nat) < 255 ∧ (254 : Nat) < 255 := by decide

theorem witness_PowerLaws_below_period : 0 < 1 ∧ 1 < 255 / Nat.gcd 255 (logf 0x03) := by decide

theorem witness_AddLawsOfCommands :
    (∃ t u v, exec .add (withAB 0x53 0xCA) = .next t ∧
      exec .add (((withAB 0x53 0xCA).setA (withAB 0x53 0xCA).b).setB (withAB 0x53 0xCA).a) = .next u ∧
      exec .add ((withAB 0x53 0xCA).setA t.r) = .next v) ∧
    (withAB 0xAB 0xAB).a = (withAB 0xAB 0xAB).b ∧ (withAB 0xAB 0x00).b = 0x00 :=
  ⟨⟨_, _, _, rfl, rfl, rfl⟩, by decide, by decide⟩

theorem witness_FailureChangesOnlyStatus :
    (∃ t, issue State.reset 0x00000000 = .next t ∧ t.status.code ≠ 0) ∧
      ∃ t, issue State.reset 0x00000004 = .next t ∧ t.status.code ≠ 0 :=
  ⟨⟨_, rfl, by decide⟩, ⟨_, rfl, by decide⟩⟩

theorem witness_SuccessKeepsStickyFlag :
    (∃ t, issue State.reset 0x00000001 = .next t ∧ t.status.code = 0) ∧
      ∃ t, issue State.reset 0x00000010 = .next t ∧ t.status.code ≠ 0 :=
  ⟨⟨_, rfl, by decide⟩, ⟨_, rfl, by decide⟩⟩

/-- A state whose `NSH` is above `N_MAX` by one, at `N_MAX`, and below 2. -/
def withCount (n : Half) : State := State.reset.setNsh n

/-- Two shares whose lengths are forged. -/
def withLengths (l0 l1 : Half) : State :=
  ((scenario 0x03).putHalf (slenOffset 0) l0).putHalf (slenOffset 1) l1

/-- Two shares with the same x (IN9, IN10). -/
def duplicates (dx : Elem) : State := withShares [(0x01, [0x05]), (0x01, [0x09])] dx

theorem scenario_passes (dx : Elem) : ChecksPass (scenario dx) 1 where
  atMostNMax := by show 2 ≤ (scenario 0).nMax; decide
  atLeastTwo := by show 2 ≤ 2; decide
  lengthsFit := by show ∀ i, i < 2 → ((scenario 0).slen i).toNat ≤ (scenario 0).mMax; decide
  sameLength := by show ∀ i, i < 2 → ((scenario 0).slen i).toNat = 1; decide

theorem duplicates_pass (dx : Elem) : ChecksPass (duplicates dx) 1 where
  atMostNMax := by show 2 ≤ (duplicates 0).nMax; decide
  atLeastTwo := by show 2 ≤ 2; decide
  lengthsFit := by show ∀ i, i < 2 → ((duplicates 0).slen i).toNat ≤ (duplicates 0).mMax; decide
  sameLength := by show ∀ i, i < 2 → ((duplicates 0).slen i).toNat = 1; decide

theorem scenario_distinct (dx : Elem) : DistinctXs (scenario dx) := by
  show ∀ i k, i < 2 → k < 2 → i ≠ k → (scenario 0).sx i ≠ (scenario 0).sx k
  intro i k hi hk
  interval_cases i <;> interval_cases k <;> decide

/-- The code a command word leaves in `STATUS`. -/
def codeOf (s : State) (w : Word) : Option (BitVec 4) := (nextState (issue s w)).map (·.status.code)

theorem witness_FailureCodesMatchCauses :
    CapOk State.reset ∧
    codeOf (withAB 0x07 0x00) 0x04 = some 1 ∧ codeOf (withAB 0x00 0x00) 0x07 = some 2 ∧
    codeOf (withAE 0x00 0) 0x09 = some 3 ∧ codeOf (withCount 1) 0x10 = some 4 ∧
    codeOf (withLengths 1 256) 0x10 = some 5 ∧ codeOf (duplicates 0x03) 0x10 = some 6 ∧
    codeOf State.reset 0x11 = some 7 ∧ codeOf (withCount 257) 0x10 = some 8 ∧
    codeOf (withLengths 257 257) 0x10 = some 8 ∧ codeOf (scenario 0x03) 0x10 = some 0 :=
  ⟨cap_ok, by decide, by decide, by decide, by decide, by decide, by decide, by decide, by decide, by decide,
    by decide⟩

theorem witness_InterpChecksInOrder :
    (withCount 257).nMax < (withCount 257).nsh.toNat ∧
    ((withCount 1).nsh.toNat ≤ (withCount 1).nMax ∧ (withCount 1).nsh.toNat < 2) ∧
    ((withLengths 1 257).nsh.toNat = 2 ∧ 2 ≤ (withLengths 1 257).nMax ∧
      (withLengths 1 257).mMax < ((withLengths 1 257).slen 1).toNat) ∧
    ((withLengths 1 256).nsh.toNat = 2 ∧
      (∀ i, i < 2 → ((withLengths 1 256).slen i).toNat ≤ (withLengths 1 256).mMax) ∧
      (withLengths 1 256).slen 1 ≠ (withLengths 1 256).slen 0) := by decide

theorem witness_InterpShortCircuitReturnsAMatchingShare :
    (ChecksPass (scenario 0x02) 1 ∧ ∃ k, k < (scenario 0x02).nsh.toNat ∧ (scenario 0x02).sx k = (scenario 0x02).dx) ∧
      ChecksPass (duplicates 0x01) 1 ∧ matchingSlots (duplicates 0x01) 2 = [0, 1] :=
  ⟨⟨scenario_passes _, 1, by decide, by decide⟩, duplicates_pass _, by decide⟩

theorem witness_InterpDetectsDuplicates :
    ChecksPass (duplicates 0x03) 1 ∧ (duplicates 0x03).nsh.toNat = 2 ∧
      (∀ j, j < 2 → (duplicates 0x03).sx j ≠ (duplicates 0x03).dx) ∧
      (duplicates 0x03).sx 0 = (duplicates 0x03).sx 1 :=
  ⟨duplicates_pass _, by decide, by decide, by decide⟩

theorem witness_InterpIsTheLagrangeSum : ChecksPass (scenario 0x03) 1 ∧ DistinctXs (scenario 0x03) :=
  ⟨scenario_passes _, scenario_distinct _⟩

/-- The polynomial `01 + 04*x` of the scenario. -/
def line : Nat → List Elem := fun _ => [0x01, 0x04]

theorem witness_InterpEvaluatesThePolynomials :
    ChecksPass (scenario 0x03) 1 ∧ DistinctXs (scenario 0x03) ∧
      ∀ j, j < 1 → (line j).length ≤ 2 ∧ ∀ i, i < 2 →
        (scenario 0x03).sy i j = polyEval (line j) ((scenario 0x03).sx i) := by
  refine ⟨scenario_passes _, scenario_distinct _, ?_⟩
  decide

/-- The second pair of shares of the scenario: x = 01 and x = 03. -/
def scenario' (dx : Elem) : State := withShares [(0x01, [0x05]), (0x03, [0x0D])] dx

theorem witness_InterpExtrapolationIsConsistent :
    (ChecksPass (scenario 0x00) 1 ∧ ChecksPass (scenario' 0x00) 1) ∧
    (DistinctXs (scenario 0x00) ∧ DistinctXs (scenario' 0x00)) ∧ (scenario' 0x00).dx = (scenario 0x00).dx ∧
      ∀ j, j < 1 → (line j).length ≤ 2 ∧
        (∀ i, i < 2 → (scenario 0x00).sy i j = polyEval (line j) ((scenario 0x00).sx i)) ∧
        ∀ i, i < 2 → (scenario' 0x00).sy i j = polyEval (line j) ((scenario' 0x00).sx i) := by
  refine ⟨⟨scenario_passes _, ⟨by decide, by decide, ?_, ?_⟩⟩, ⟨scenario_distinct _, ?_⟩, by decide, by decide⟩
  · show ∀ i, i < 2 → ((scenario' 0x00).slen i).toNat ≤ (scenario' 0x00).mMax
    decide
  · show ∀ i, i < 2 → ((scenario' 0x00).slen i).toNat = 1
    decide
  · show ∀ i k, i < 2 → k < 2 → i ≠ k → (scenario' 0x00).sx i ≠ (scenario' 0x00).sx k
    intro i k hi hk
    interval_cases i <;> interval_cases k <;> decide

/-- The scenario with a third slot that `NSH` leaves out (IN26). -/
def scenarioPlus (dx : Elem) : State := putShare (scenario dx) 2 0x02 [0x01]

theorem witness_InterpReadsOnlyTheUsedShares :
    (scenarioPlus 0x03 ≠ scenario 0x03 ∧ (scenarioPlus 0x03).nsh = (scenario 0x03).nsh) ∧
      (∀ i, i < 2 → (scenarioPlus 0x03).sx i = (scenario 0x03).sx i ∧
        (scenarioPlus 0x03).slen i = (scenario 0x03).slen i ∧ (scenarioPlus 0x03).sy i 0 = (scenario 0x03).sy i 0) ∧
      result .interp (scenario 0x03) (·.status.code) = some 0 ∧
      result .interp (scenarioPlus 0x03) (fun t => (t.status.code, t.ry 0)) = some (0, 0x0D) := by decide

theorem witness_CommandsKeepOperandsAndShares : CapOk State.reset ∧ ∃ t, exec .mul State.reset = .next t :=
  ⟨cap_ok, _, rfl⟩

theorem witness_FieldCommandsReadOnlyTheirOperands :
    (withAB 0x53 0xCA).setR 0x77 ≠ withAB 0x53 0xCA ∧
      (∃ t t', exec .div (withAB 0x53 0xCA) = .next t ∧ exec .div ((withAB 0x53 0xCA).setR 0x77) = .next t') ∧
      result .div (withAB 0x53 0xCA) (·.status.code) = some 0 :=
  ⟨by decide, ⟨_, _, rfl, rfl⟩, by decide⟩

theorem witness_ResultsChangeOnlyByTheirCommands :
    CapOk State.reset ∧
      nextEvent (withProgram [issueEvent 0 0x08]) ≠ some .reset ∧
      (nextState (step (withProgram [issueEvent 0 0x08]))).map (·.r) ≠ some 0x00 ∧
      (nextState (step ((withAB 0xF6 0x00).load [issueEvent 0 0x07]))).map (·.l) = some 254 ∧
      (nextState (step (withProgram [issueEvent 0 0x0A]))).map (·.flags.z) = some true ∧
      (nextState (step ((scenario 0x03).load [issueEvent 0 0x10]))).map (·.rx) = some 0x03 :=
  ⟨cap_ok, by decide, by decide, by decide, by decide, by decide⟩

theorem witness_AddressMapIsExact :
    CapOk State.reset ∧ Location.Mapped 256 256 (.sy 255 255) ∧ 0x10F404 % 4 = 0 ∧
      locate 256 256 0x10F404 = some (.sy 255 255) ∧ locate 256 256 0x1404 = some (.ry 255) ∧
      locate 256 256 0x1408 = none ∧ locate 256 256 0x002C = none ∧ locate 256 256 0x110000 = none :=
  ⟨cap_ok, by unfold Location.Mapped; decide, by decide, by decide, by decide, by decide, by decide, by decide⟩

theorem witness_HostReadsHaveNoSideEffect :
    CapOk (withProgram [.read 0x10F404 4]) ∧ Location.Mapped 256 256 (.sy 255 255) ∧
      nextEvent (withProgram [.read 0x10F404 4]) = some (.read (0 + Location.offset (.sy 255 255)) 4) :=
  ⟨cap_ok, by unfold Location.Mapped; decide, by decide⟩

/-- What a host write needs to be one of a read-write word, at the location given. -/
def WritesReadWrite (loc : Location) : Prop :=
  Location.Mapped 256 256 loc ∧ loc ∉ [Location.cmd, .status, .r, .l, .flags, .cap, .rx, .rlen] ∧
    (∀ j, loc ≠ .ry j) ∧
    nextEvent (withProgram [.write loc.offset 4 0xABCDEF12]) = some (.write (0 + loc.offset) 4 0xABCDEF12)

theorem witness_HostWritesReadBackNarrowed :
    CapOk (withProgram [.write 0x10F404 4 0xABCDEF12]) ∧ WritesReadWrite .a ∧ WritesReadWrite .nsh ∧
      WritesReadWrite .e ∧ WritesReadWrite (.sx 255) ∧ WritesReadWrite (.slen 255) ∧ WritesReadWrite (.sy 255 255) ∧
      Location.sx 255 ≠ Location.slen 255 := by
  refine ⟨cap_ok, ?_, ?_, ?_, ?_, ?_, ?_, by decide⟩ <;>
    exact ⟨by unfold Location.Mapped; decide, by decide, by simp, by decide⟩

theorem witness_ReadOnlyWritesAreIgnored :
    CapOk (withProgram [.write 0x1404 4 0x55]) ∧ Location.Mapped 256 256 (.ry 255) ∧
      nextEvent (withProgram [.write 0x1404 4 0x55]) = some (.write (0 + Location.offset (.ry 255)) 4 0x55) ∧
      nextEvent (withProgram [.write 0x0014 4 0x55]) = some (.write (0 + Location.offset .r) 4 0x55) :=
  ⟨cap_ok, by unfold Location.Mapped; decide, by decide, by decide⟩

/-- A state with a failure on record and these host events to come. -/
def afterFailure (events : List HostEvent) : State := (State.reset.raise .divideByZero).load events

theorem witness_StickyFlagIsClearedOnlyByHostOrReset :
    (∃ t, issue State.reset 0x00000004 = .next t ∧ t.status.code ≠ 0) ∧
    (nextEvent (afterFailure [.write 0x0004 4 0x10]) = some (.write (0 + 0x0004) 4 0x10) ∧
      BitVec.getLsbD (0x10 : Word) 4 = true) ∧
    (nextEvent (afterFailure [.write 0x0004 4 0xFFFFFFEF]) = some (.write (0 + 0x0004) 4 0xFFFFFFEF) ∧
      BitVec.getLsbD (0xFFFFFFEF : Word) 4 = false) ∧
    (afterFailure [.write 0x0004 4 0x10]).status.estky = true ∧
    (nextState (step (afterFailure [.write 0x0004 4 0x10]))).map (·.status.estky) = some false ∧
    (nextState (step (afterFailure [.reset]))).map (·.status.estky) = some false :=
  ⟨⟨_, rfl, by decide⟩, by decide⟩

theorem witness_OtherAccessesAreBusErrors :
    (CapOk (withProgram [.read 0x0010 8]) ∧ nextEvent (withProgram [.read 0x0010 8]) = some (.read 0x0010 8)) ∧
      (nextEvent (withProgram [.write 0x0009 4 0]) = some (.write 0x0009 4 0) ∧ 0x0009 % 4 ≠ 0) ∧
      nextEvent (withProgram [.read 0x002C 4]) = some (.read 0x002C 4) ∧
      ∀ loc : Location, loc.Mapped 256 256 → 0x002C ≠ 0 + loc.offset := by
  refine ⟨⟨cap_ok, by decide⟩, by decide, by decide, ?_⟩
  intro loc _
  cases loc <;> simp [Location.offset, ryOffset, ryBase, sxOffset, slenOffset, syOffset, slotOffset] <;> omega

theorem witness_ExactlyTheAdmittedEventsRun :
    CapOk (withProgram [.read 0x0008 4]) ∧ nextEvent (withProgram [.read 0x0008 4]) = some (.read 0x0008 4) ∧
      Admitted (withProgram [.read 0x0008 4]) (.read 0x0008 4) ∧
      ¬ Admitted (withProgram [.read 0x0008 2]) (.read 0x0008 2) :=
  ⟨cap_ok, by decide, ⟨rfl, .a, trivial, rfl⟩, fun h => absurd h.1 (by decide)⟩

theorem witness_ResetClearsEveryRegister : nextEvent (withProgram [.reset]) = some .reset := by decide

theorem witness_ParametersAreConstant : ∃ t, step (withProgram [.write 0x0028 4 0]) = .next t := ⟨_, rfl⟩

/-- A state with a written slot, a failure on record and a command to run. -/
def busy : State := ((putShare (withAB 0x53 0x00) 1 0x02 [0x09]).raise .divideByZero).load [issueEvent 0 0x07]

theorem witness_StepKeepsInvariant : Inv busy ∧ ∃ t, step busy = .next t := by
  refine ⟨⟨by decide, ?_, ⟨by decide, by decide⟩, by decide, by decide, by decide, by decide, by decide⟩, _, rfl⟩
  intro cell hcell
  have h : cell.1 ∈ [sxOffset 1, slenOffset 1, slenOffset 1 + 1, syOffset 1 0] :=
    List.mem_map_of_mem (f := Prod.fst) hcell
  refine .inr ⟨1, by decide, ?_⟩
  simp only [List.mem_cons, List.not_mem_nil, or_false] at h
  rcases h with h | h | h | h
  · exact .inl h
  · exact .inr (.inl h)
  · exact .inr (.inr (.inl h))
  · exact .inr (.inr (.inr ⟨0, by decide, h⟩))

/-- Two slots and no room for y-values (00_scope.md R5 allows `M_MAX = 0`), an empty share to store. -/
def noYs : State := { withProgram (asmShare 0 1 0x02 []) with cap := 0x00000002 }

theorem witness_ShareLinesStoreTheShare_no_ys :
    CapOk noYs ∧ 1 < noYs.nMax ∧ ([] : List Elem).length ≤ noYs.mMax ∧ noYs.mMax = 0 ∧
      noYs.host.program = asmShare noYs.base 1 0x02 [] ∧ noYs.host.index = 0 ∧ 0 < noYs.nMax ∧ 0 ≠ 1 := by
  refine ⟨by unfold CapOk; decide, ?_⟩
  decide

theorem witness_ShareLinesStoreTheShare :
    CapOk (withProgram (asmShare 0 255 0x02 [0x09])) ∧ 255 < (withProgram (asmShare 0 255 0x02 [0x09])).nMax ∧
      [(0x09 : Elem)].length ≤ (withProgram (asmShare 0 255 0x02 [0x09])).mMax ∧
      (withProgram (asmShare 0 255 0x02 [0x09])).host.program = asmShare 0 255 0x02 [0x09] ∧
      (withProgram (asmShare 0 255 0x02 [0x09])).host.index = 0 :=
  ⟨cap_ok, by decide, by decide, by decide, by decide⟩

end Sys2Proof.Tests
end

section
/-! PROOFS. The laws the statements about the state share (what an operation stores, what a command, a host write and
a step leave alone, what the address map names), then the statements themselves. -/

namespace Sys2Proof.Machine

/-! ### The inversion of a command, stated on its next state -/

/-- `exec_cases` for a command known to answer `t`: the failure, or the one result it has written. -/
theorem exec_next_cases {i : Instr} {s t : State} (h : exec i s = .next t) :
    (∃ f, t = s.raise f) ∨
    (i ∈ [Instr.add, .sub, .mul, .div, .neg, .pos, .exp, .pow] ∧ ∃ v, t = (s.setR v).succeed) ∨
    (i = .log ∧ s.a ≠ 0x00 ∧ t = (s.setL (BitVec.ofNat 8 (logf s.a))).succeed) ∨
    (i = .tst ∧ t = (s.setFlags (zeroFlags s.flags s.a)).succeed) ∨
    (i = .cmp ∧ t = (s.setFlags (compareFlags s.flags s.a s.b)).succeed) ∨
    (i = .interp ∧ ∃ x len ys, ys.length = len.toNat ∧ len.toNat ≤ s.mMax ∧
      (t = (s.setResult x len ys).succeed ∨ t = (s.setResult x len ys).countDraw.succeed)) := by
  simpa only [h, Host.Outcome.next.injEq] using exec_cases i s

/-! ### What an operation stores in memory -/

/-- Going from memory `m` to `m'` keeps the canonical form and lists and changes bytes at offsets of `P` only. -/
structure StoresWithin (P : Nat → Prop) (m m' : Memory) : Prop where
  canonical : Memory.wf m = true → Memory.wf m' = true
  listed : ∀ cell ∈ m', cell ∈ m ∨ P cell.1
  kept : ∀ off, ¬ P off → memGet m' off = memGet m off

namespace StoresWithin

theorem refl (P : Nat → Prop) (m : Memory) : StoresWithin P m m :=
  ⟨id, fun _ => .inl, fun _ _ => rfl⟩

theorem trans {P : Nat → Prop} {m m' m'' : Memory} (h : StoresWithin P m m') (h' : StoresWithin P m' m'') :
    StoresWithin P m m'' where
  canonical hm := h'.canonical (h.canonical hm)
  listed cell hc := (h'.listed cell hc).elim (h.listed cell) .inr
  kept off hoff := (h'.kept off hoff).trans (h.kept off hoff)

theorem mono {P Q : Nat → Prop} {m m' : Memory} (h : StoresWithin P m m') (hPQ : ∀ off, P off → Q off) :
    StoresWithin Q m m' where
  canonical := h.canonical
  listed cell hc := (h.listed cell hc).imp_right (hPQ _)
  kept off hoff := h.kept off fun hp => hoff (hPQ off hp)

theorem put {P : Nat → Prop} (m : Memory) {off : Nat} (v : BitVec 8) (hoff : P off) :
    StoresWithin P m (memPut m off v) where
  canonical := memPut_keeps_wf off v
  listed _ hc := (mem_memPut hc).imp_right (by rintro rfl; exact hoff)
  kept off' hoff' := memGet_memPut_other m v fun e => hoff' (e ▸ hoff)

theorem putElems {P : Nat → Prop} (m : Memory) {off : Nat} (ys : List Elem)
    (hoff : ∀ j, j < ys.length → P (off + 4 * j)) : StoresWithin P m (memPutElems m off ys) where
  canonical := memPutElems_keeps_wf off ys
  listed _ hc := (mem_memPutElems hc).imp_right fun ⟨j, hj, e⟩ => e ▸ hoff j hj
  kept off' hoff' := memGet_memPutElems_outside m off ys off' fun j hj e => hoff' (e ▸ hoff j hj)

/-- A byte outside the offsets stored at reads as before, as long as no reset intervenes. -/
theorem byteAt_eq {P : Nat → Prop} {s t : State} (h : StoresWithin P s.mem t.mem) (epoch : t.epoch = s.epoch)
    {off : Nat} (hoff : ¬ P off) : t.byteAt off = s.byteAt off := by
  simp only [State.byteAt, h.kept off hoff, epoch]

end StoresWithin

/-- The offsets of the y-values of the result share (20_memory.md R52). -/
def ResultOffset (mMax off : Nat) : Prop := ∃ j, j < mMax ∧ off = ryOffset j

/-- The offsets of the bytes of the share buffer (20_memory.md R53). -/
def ShareOffset (nMax mMax off : Nat) : Prop := MemoryOffset nMax mMax off ∧ shareBufferStart ≤ off

theorem ResultOffset.mapped {nMax mMax off : Nat} (h : ResultOffset mMax off) : MemoryOffset nMax mMax off := .inl h

/-- With `M_MAX` within its bound the result share lies below the share buffer (00_scope.md R5, 20_memory.md R52). -/
theorem ResultOffset.lt_shareBufferStart {mMax off : Nat} (hm : mMax ≤ 1022) (h : ResultOffset mMax off) :
    off < shareBufferStart := by
  obtain ⟨j, hj, rfl⟩ := h
  simp only [ryOffset, ryBase, shareBufferStart]
  omega

theorem shareOffset_sx {nMax mMax i : Nat} (hi : i < nMax) : ShareOffset nMax mMax (sxOffset i) :=
  ⟨.inr ⟨i, hi, .inl rfl⟩, by simp only [sxOffset, slotOffset, shareBufferStart]; omega⟩

theorem shareOffset_slen {nMax mMax i : Nat} (hi : i < nMax) :
    ShareOffset nMax mMax (slenOffset i) ∧ ShareOffset nMax mMax (slenOffset i + 1) := by
  have hle : shareBufferStart ≤ slenOffset i := by simp only [slenOffset, slotOffset, shareBufferStart]; omega
  exact ⟨⟨.inr ⟨i, hi, .inr (.inl rfl)⟩, hle⟩, ⟨.inr ⟨i, hi, .inr (.inr (.inl rfl))⟩, hle.trans (Nat.le_succ _)⟩⟩

theorem shareOffset_sy {nMax mMax i j : Nat} (hi : i < nMax) (hj : j < mMax) :
    ShareOffset nMax mMax (syOffset i j) :=
  ⟨.inr ⟨i, hi, .inr (.inr (.inr ⟨j, hj, rfl⟩))⟩, by simp only [syOffset, slotOffset, shareBufferStart]; omega⟩

/-! ### What an operation leaves alone -/

/-- The parameters, the host agent and the epoch of the unknowns are as before: all that neither a command nor a host
write touches. -/
structure SamePlatform (s t : State) : Prop where
  cap : t.cap = s.cap
  base : t.base = s.base
  host : t.host = s.host
  epoch : t.epoch = s.epoch

theorem SameHostSide.platform {s t : State} (h : SameHostSide s t) : SamePlatform s t :=
  ⟨h.cap, h.base, h.host, h.epoch⟩

/-- The result registers are as before: all that only commands write, but for the y-values of the result share. -/
structure SameResultRegisters (s t : State) : Prop where
  r : t.r = s.r
  l : t.l = s.l
  flags : t.flags = s.flags
  rx : t.rx = s.rx
  rlen : t.rlen = s.rlen

/-! ### A command -/

theorem exec_sameHostSide {i : Instr} {s t : State} (h : exec i s = .next t) : SameHostSide s t := by
  rcases exec_next_cases h with ⟨f, rfl⟩ | ⟨-, v, rfl⟩ | ⟨-, -, rfl⟩ | ⟨-, rfl⟩ | ⟨-, rfl⟩ |
      ⟨-, x, len, ys, -, -, rfl | rfl⟩ <;>
    exact ⟨rfl, rfl, rfl, rfl, rfl, rfl, rfl, rfl, rfl⟩

/-- A command stores nothing but y-values of the result share (10_state.md R31, R32). -/
theorem exec_stores {i : Instr} {s t : State} (h : exec i s = .next t) :
    StoresWithin (ResultOffset s.mMax) s.mem t.mem := by
  rcases exec_next_cases h with ⟨f, rfl⟩ | ⟨-, v, rfl⟩ | ⟨-, -, rfl⟩ | ⟨-, rfl⟩ | ⟨-, rfl⟩ |
    ⟨-, x, len, ys, hlen, hle, ht⟩
  case inr.inr.inr.inr.inr =>
    have stored : StoresWithin (ResultOffset s.mMax) s.mem (memPutElems s.mem ryBase ys) :=
      .putElems _ ys fun j hj => ⟨j, by omega, rfl⟩
    rcases ht with rfl | rfl <;> exact stored
  all_goals exact .refl _ _

theorem issue_samePlatform {s t : State} {w : Word} (h : issue s w = .next t) : SamePlatform s t := by
  rcases issue_cases s w with ⟨i, -, hi⟩ | ⟨-, hf⟩
  · exact (exec_sameHostSide (hi ▸ h)).platform
  · cases hf.symm.trans h
    exact ⟨rfl, rfl, rfl, rfl⟩

/-! ### The address map -/

/-- A word offset at which the map finds a location is that location's, and the location exists (20_memory.md R51 to
R53). -/
theorem locate_sound {nMax mMax off : Nat} {loc : Location} (haligned : off % 4 = 0)
    (h : locate nMax mMax off = some loc) : loc.Mapped nMax mMax ∧ loc.offset = off := by
  unfold locate at h
  split at h
  · unfold locateControl at h
    split at h <;> cases h <;> exact ⟨trivial, rfl⟩
  · split at h
    · simp only [locateResult] at h
      split_ifs at h with hrx hrlen hj <;> cases h
      · exact ⟨trivial, by simp only [Location.offset]; omega⟩
      · exact ⟨trivial, by simp only [Location.offset]; omega⟩
      · exact ⟨hj, by simp only [Location.offset, ryOffset, ryBase]; omega⟩
    · dsimp only at h
      split_ifs at h with hi
      simp only [locateSlot] at h
      split_ifs at h with hsx hslen hj <;> cases h
      · exact ⟨hi, by simp only [Location.offset, sxOffset, slotOffset]; omega⟩
      · exact ⟨hi, by simp only [Location.offset, slenOffset, slotOffset]; omega⟩
      · exact ⟨⟨hi, hj⟩, by simp only [Location.offset, syOffset, slotOffset]; omega⟩

/-- A bus access that reaches a location is an aligned word access to it, and the location exists. -/
theorem busTarget_sound {s : State} {addr size : Nat} {loc : Location} (h : busTarget s addr size = .next loc) :
    loc.Mapped s.nMax s.mMax ∧ addr = s.base + loc.offset ∧ size = 4 := by
  obtain ⟨hbase, hsize, haligned, hloc⟩ := busTarget_next h
  obtain ⟨hmapped, hoff⟩ := locate_sound haligned hloc
  exact ⟨hmapped, by omega, hsize⟩

/-! ### A host write -/

/-- A host write that issues no command leaves the results and `CODE` alone (20_memory.md R55, R57). -/
theorem writeLocation_keeps_results {s t : State} {w : Word} {loc : Location} (hloc : loc ≠ .cmd)
    (h : writeLocation s w loc = .next t) : SameResultRegisters s t ∧ t.status.code = s.status.code := by
  cases loc with
  | cmd => exact absurd rfl hloc
  | _ => cases h; exact ⟨⟨rfl, rfl, rfl, rfl, rfl⟩, rfl⟩

theorem writeLocation_samePlatform {s t : State} {w : Word} {loc : Location}
    (h : writeLocation s w loc = .next t) : SamePlatform s t := by
  cases loc with
  | cmd => exact issue_samePlatform h
  | _ => cases h; exact ⟨rfl, rfl, rfl, rfl⟩

/-- A host write to a mapped location that issues no command stores in the share buffer only. -/
theorem writeLocation_stores {s t : State} {w : Word} {loc : Location} (hloc : loc ≠ .cmd)
    (hmapped : loc.Mapped s.nMax s.mMax) (h : writeLocation s w loc = .next t) :
    StoresWithin (ShareOffset s.nMax s.mMax) s.mem t.mem := by
  cases loc with
  | cmd => exact absurd rfl hloc
  | sx i =>
    cases h
    exact .put _ _ (shareOffset_sx hmapped)
  | slen i =>
    cases h
    obtain ⟨hlow, hhigh⟩ := shareOffset_slen hmapped
    exact (StoresWithin.put _ _ hlow).trans (.put _ _ hhigh)
  | sy i j =>
    cases h
    exact .put _ _ (shareOffset_sy hmapped.1 hmapped.2)
  | _ => cases h; exact .refl _ _

/-! ### A step -/

theorem nextEvent_eq_none_iff (s : State) : nextEvent s = none ↔ s.host.program.length ≤ s.host.index :=
  List.getElem?_eq_none_iff

/-- What a step does to the parameters and the host: nothing past the end of the list; else it keeps the parameters,
moves the index past the event and returns at most one word. -/
theorem step_platform {s t : State} (h : step s = .next t) :
    (nextEvent s = none ∧ t = s) ∨
    ((∃ event, nextEvent s = some event) ∧ t.cap = s.cap ∧ t.base = s.base ∧
      (t.host = s.advanceHost.host ∨ ∃ w, t.host = (s.advanceHost.returnRead w).host)) := by
  rcases step_cases h with ⟨hn, rfl⟩ | ⟨hn, rfl⟩ | ⟨addr, size, loc, hn, -, rfl⟩ | ⟨addr, size, w, loc, hn, -, hw⟩
  · exact .inl ⟨hn, rfl⟩
  · exact .inr ⟨⟨_, hn⟩, rfl, rfl, .inl rfl⟩
  · exact .inr ⟨⟨_, hn⟩, rfl, rfl, .inr ⟨_, rfl⟩⟩
  · obtain ⟨hcap, hbase, hhost, -⟩ := writeLocation_samePlatform hw
    exact .inr ⟨⟨_, hn⟩, hcap, hbase, .inl hhost⟩

/-! ### The parameters -/

/-- `CAP` is `M_MAX` over `N_MAX` (10_state.md R29). -/
theorem cap_toNat (s : State) : s.cap.toNat = s.mMax * 65536 + s.nMax := by
  simp only [State.mMax, State.nMax, BitVec.extractLsb'_toNat, Nat.shiftRight_eq_div_pow]
  have := s.cap.isLt
  omega

/-! ### The decoder -/

/-- Every row of the opcode map matches exactly its command's word (30_encoding.md R70, R71). -/
theorem opcodeTable_row_exact : ∀ row ∈ opcodeTable, row.mask = BitVec.allOnes 32 ∧ row.matchWord = encode row.command := by
  decide

theorem eq_encode_of_decode {w : Word} {i : Instr} (h : decode w = .ok i) : w = encode i := by
  unfold decode at h
  split at h
  · rename_i row hrow
    cases h
    obtain ⟨hmask, hmatch⟩ := opcodeTable_row_exact row (List.mem_of_find?_eq_some hrow)
    have hsel := List.find?_some hrow
    simpa only [OpcodeRow.selectedBy, hmask, hmatch, BitVec.and_allOnes, beq_iff_eq] using hsel
  · split_ifs at h

/-! ### Which step can change a result -/

/-- The whole result, the y-values of the result share included, is as before. -/
structure SameResults (s t : State) : Prop where
  registers : SameResultRegisters s t
  ry : ∀ j, j < s.mMax → t.ry j = s.ry j

/-- A host write that issues no command does not reach the result share's y-values. -/
theorem writeLocation_sameResults {s t : State} {w : Word} {loc : Location} (hcap : CapOk s) (hloc : loc ≠ .cmd)
    (hmapped : loc.Mapped s.nMax s.mMax) (h : writeLocation s w loc = .next t) : SameResults s t where
  registers := (writeLocation_keeps_results hloc h).1
  ry j hj := by
    refine (writeLocation_stores hloc hmapped h).byteAt_eq (writeLocation_samePlatform h).epoch fun hshare => ?_
    have := ResultOffset.lt_shareBufferStart hcap.2 ⟨j, hj, rfl⟩
    exact absurd hshare.2 (by omega)

/-- A step that is no reset keeps the results, or it runs a command that the host has issued. -/
theorem step_sameResults_or_exec {s t : State} (hcap : CapOk s) (h : step s = .next t)
    (hreset : nextEvent s ≠ some .reset) :
    SameResults s t ∨ ∃ i, Issues s (encode i) ∧ exec i s.advanceHost = .next t := by
  rcases step_cases h with ⟨-, rfl⟩ | ⟨hn, -⟩ | ⟨addr, size, loc, -, -, rfl⟩ | ⟨addr, size, w, loc, hn, hb, hw⟩
  · exact .inl ⟨⟨rfl, rfl, rfl, rfl, rfl⟩, fun _ _ => rfl⟩
  · exact absurd hn hreset
  · exact .inl ⟨⟨rfl, rfl, rfl, rfl, rfl⟩, fun _ _ => rfl⟩
  · obtain ⟨hmapped, rfl, rfl⟩ := busTarget_sound hb
    by_cases hloc : loc = .cmd
    · subst hloc
      rcases issue_cases s.advanceHost w with ⟨i, hi, he⟩ | ⟨-, hf⟩
      · cases eq_encode_of_decode hi
        exact .inr ⟨i, hn, he ▸ hw⟩
      · cases hf.symm.trans hw
        exact .inl ⟨⟨rfl, rfl, rfl, rfl, rfl⟩, fun _ _ => rfl⟩
    · obtain ⟨⟨hr, hl, hf, hx, hlen⟩, hy⟩ := writeLocation_sameResults (s := s.advanceHost) hcap hloc hmapped hw
      exact .inl ⟨⟨hr, hl, hf, hx, hlen⟩, hy⟩

/-! ### The tables -/

/-- The logarithm table undone by the antilogarithm table, entry by entry (10_state.md R33). -/
theorem ilogf_logf : ∀ v : Elem, v ≠ 0x00 → ilogf (logf v) = v ∧ logf v ≤ 254 := by decide

/-- Neighbouring entries of the antilogarithm table are one round of the generation procedure apart. -/
theorem ilogf_succ_of_byte : ∀ e : BitVec 8, e.toNat < 254 → ilogf (e.toNat + 1) = times3 (ilogf e.toNat) := by decide

/-- The antilogarithm table undone by the logarithm table, entry by entry (10_state.md R33). -/
theorem logf_ilogf_of_byte : ∀ e : BitVec 8, e.toNat ≤ 254 → logf (ilogf e.toNat) = e.toNat ∧ ilogf e.toNat ≠ 0x00 := by
  decide

theorem ilogf_succ {e : Nat} (he : e < 254) : ilogf (e + 1) = times3 (ilogf e) := by
  have := ilogf_succ_of_byte (BitVec.ofNat 8 e)
  rw [BitVec.toNat_ofNat, Nat.mod_eq_of_lt (by omega)] at this
  exact this he

theorem logf_ilogf {e : Nat} (he : e ≤ 254) : logf (ilogf e) = e ∧ ilogf e ≠ 0x00 := by
  have := logf_ilogf_of_byte (BitVec.ofNat 8 e)
  rw [BitVec.toNat_ofNat, Nat.mod_eq_of_lt (by omega)] at this
  exact this he

/-- The antilogarithm table is what the generation procedure produces (10_state.md R33). -/
theorem ilogf_eq_generated : ∀ e, e < 255 → ilogf e = generated e
  | 0, _ => rfl
  | e + 1, he => by rw [ilogf_succ (by omega), ilogf_eq_generated e (by omega), generated]

/-! ### Reset -/

theorem reset_registersCleared : RegistersCleared State.reset :=
  ⟨rfl, rfl, rfl, rfl, rfl, rfl, rfl, rfl, rfl, rfl, rfl, rfl⟩

theorem resetUnit_registersCleared (s : State) : RegistersCleared (resetUnit s) :=
  ⟨rfl, rfl, rfl, rfl, rfl, rfl, rfl, rfl, rfl, rfl, rfl, rfl⟩

theorem step_of_reset {s : State} (h : nextEvent s = some .reset) : step s = .next (resetUnit s.advanceHost) := by
  simp only [step, h, performEvent]

/-! ### The invariant -/

/-- A state with cleared registers satisfies the invariant, whatever its parameters and its host list. -/
theorem RegistersCleared.inv {s : State} (h : RegistersCleared s) (hcap : CapOk s)
    (hindex : s.host.index ≤ s.host.program.length) : Inv s where
  memoryCanonical := by rw [h.unwritten]; rfl
  memoryMapped := by simp [h.unwritten]
  capOk := hcap
  codeDefined := by simp [h.status]
  logarithm := by simp [h.l]
  resultLength := by simp [h.rlen]
  comparison := by simp [h.flags]
  hostIndex := hindex

/-- An operation that keeps parameters and host and stores at mapped bytes keeps the invariant, when the four result
registers it bounds stay within their bounds. -/
theorem Inv.of_stores {s t : State} (inv : Inv s) (platform : SamePlatform s t)
    (stores : StoresWithin (MemoryOffset s.nMax s.mMax) s.mem t.mem) (code : t.status.code.toNat ≤ 8)
    (logarithm : t.l.toNat ≤ 254) (resultLength : t.rlen.toNat ≤ s.mMax)
    (comparison : ¬ (t.flags.eq = true ∧ t.flags.lt = true) ∧ ¬ (t.flags.eq = true ∧ t.flags.gt = true) ∧
      ¬ (t.flags.lt = true ∧ t.flags.gt = true)) : Inv t := by
  have hn : t.nMax = s.nMax := by simp only [State.nMax, platform.cap]
  have hm : t.mMax = s.mMax := by simp only [State.mMax, platform.cap]
  exact {
    memoryCanonical := stores.canonical inv.memoryCanonical
    memoryMapped := fun cell hc => by
      rw [hn, hm]
      exact (stores.listed cell hc).elim (inv.memoryMapped cell) id
    capOk := by simpa only [CapOk, hn, hm] using inv.capOk
    codeDefined := code
    logarithm := logarithm
    resultLength := hm ▸ resultLength
    comparison := comparison
    hostIndex := platform.host ▸ inv.hostIndex }

theorem failureCode_le (f : Failure) : (failureCode f).toNat ≤ 8 := by cases f <;> decide

/-- CMP's flags exclude one another (42_compare.md R141). -/
theorem compareFlags_exclusive (f : Flags) (v w : Elem) :
    ¬ ((compareFlags f v w).eq = true ∧ (compareFlags f v w).lt = true) ∧
    ¬ ((compareFlags f v w).eq = true ∧ (compareFlags f v w).gt = true) ∧
    ¬ ((compareFlags f v w).lt = true ∧ (compareFlags f v w).gt = true) := by
  simp only [compareFlags, decide_eq_true_eq]
  omega

/-- The logarithm of a nonzero element fits `L` and is at most 254 there (10_state.md R24). -/
theorem logf_toNat_le {v : Elem} (hv : v ≠ 0x00) : (BitVec.ofNat 8 (logf v)).toNat ≤ 254 := by
  have := (ilogf_logf v hv).2
  rw [BitVec.toNat_ofNat]
  omega

theorem raise_keeps_inv {s : State} (inv : Inv s) (f : Failure) : Inv (s.raise f) :=
  inv.of_stores ⟨rfl, rfl, rfl, rfl⟩ (.refl _ _) (failureCode_le f) inv.logarithm inv.resultLength inv.comparison

theorem exec_keeps_inv {i : Instr} {s t : State} (inv : Inv s) (h : exec i s = .next t) : Inv t := by
  have keep := inv.of_stores (exec_sameHostSide h).platform ((exec_stores h).mono fun _ => ResultOffset.mapped)
  have success : (0 : BitVec 4).toNat ≤ 8 := by decide
  rcases exec_next_cases h with ⟨f, rfl⟩ | ⟨-, v, rfl⟩ | ⟨-, ha, rfl⟩ | ⟨-, rfl⟩ | ⟨-, rfl⟩ |
    ⟨-, x, len, ys, -, hle, rfl | rfl⟩
  · exact raise_keeps_inv inv f
  · exact keep success inv.logarithm inv.resultLength inv.comparison
  · exact keep success (logf_toNat_le ha) inv.resultLength inv.comparison
  · exact keep success inv.logarithm inv.resultLength inv.comparison
  · exact keep success inv.logarithm inv.resultLength (compareFlags_exclusive _ _ _)
  · exact keep success inv.logarithm hle inv.comparison
  · exact keep success inv.logarithm hle inv.comparison

theorem issue_keeps_inv {s t : State} {w : Word} (inv : Inv s) (h : issue s w = .next t) : Inv t := by
  rcases issue_cases s w with ⟨i, -, hi⟩ | ⟨-, hf⟩
  · exact exec_keeps_inv inv (hi ▸ h)
  · cases hf.symm.trans h
    exact raise_keeps_inv inv _

theorem writeLocation_keeps_inv {s t : State} {w : Word} {loc : Location} (inv : Inv s)
    (hmapped : loc.Mapped s.nMax s.mMax) (h : writeLocation s w loc = .next t) : Inv t := by
  by_cases hloc : loc = .cmd
  · subst hloc
    exact issue_keeps_inv inv h
  · obtain ⟨⟨-, hl, hflags, -, hlen⟩, hcode⟩ := writeLocation_keeps_results hloc h
    exact inv.of_stores (writeLocation_samePlatform h) ((writeLocation_stores hloc hmapped h).mono fun _ => And.left)
      (hcode ▸ inv.codeDefined) (hl ▸ inv.logarithm) (hlen ▸ inv.resultLength) (hflags ▸ inv.comparison)

theorem advanceHost_keeps_inv {s : State} {event : HostEvent} (inv : Inv s) (h : nextEvent s = some event) :
    Inv s.advanceHost :=
  { inv with hostIndex := (List.getElem?_eq_some_iff.1 h).1 }

theorem returnRead_keeps_inv {s : State} (inv : Inv s) (w : Word) : Inv (s.returnRead w) :=
  { inv with }

/-! ### The statements about the state -/

/-- Settles O6: the host's part of a step is the same for every event, up to the word a read returns. -/
theorem hostListRunsInOrder : Obligations.HostListRunsInOrder := by
  intro s t h
  rcases step_platform h with ⟨hn, rfl⟩ | ⟨⟨event, hn⟩, -, -, hhost⟩
  · rw [nextEvent_eq_none_iff] at hn
    exact ⟨fun hlt => absurd hlt (by omega), fun _ => rfl⟩
  · refine ⟨fun _ => ?_, fun hend => ?_⟩
    · rcases hhost with hhost | ⟨w, hhost⟩ <;> rw [hhost]
      · exact ⟨rfl, rfl, .inl rfl⟩
      · exact ⟨rfl, rfl, .inr ⟨w, rfl⟩⟩
    · rw [(nextEvent_eq_none_iff s).2 hend] at hn
      cases hn

/-- Settles O35: a command stores only at the result share's y-values, which lie below the share buffer. -/
theorem commandsKeepOperandsAndShares : Obligations.CommandsKeepOperandsAndShares := by
  intro s t i hcap h
  have same := exec_sameHostSide h
  refine ⟨same, fun off hoff => (exec_stores h).byteAt_eq same.epoch fun hres => ?_⟩
  have := hres.lt_shareBufferStart hcap.2
  omega

/-- Settles O47: no event touches the parameters, and `CAP` is put together from its two halves. -/
theorem parametersAreConstant : Obligations.ParametersAreConstant := by
  intro s t h
  have same : t.cap = s.cap ∧ t.base = s.base := by
    rcases step_platform h with ⟨-, rfl⟩ | ⟨-, hcap, hbase, -⟩
    · exact ⟨rfl, rfl⟩
    · exact ⟨hcap, hbase⟩
  obtain ⟨hcap, hbase⟩ := same
  exact ⟨hcap, hbase, by simp only [State.nMax, hcap], by simp only [State.mMax, hcap], cap_toNat s⟩

/-- Settles O37: apart from reset only an issued command reaches a result, and each command only its own. -/
theorem resultsChangeOnlyByTheirCommands : Obligations.ResultsChangeOnlyByTheirCommands := by
  intro s t hcap h hreset
  rcases step_sameResults_or_exec hcap h hreset with ⟨⟨hr, hl, hf, hx, hlen⟩, hy⟩ | ⟨i, hissue, he⟩
  · refine ⟨fun hne => absurd hr hne, fun hne => absurd hl hne, fun hne => absurd hf hne, ?_⟩
    rintro (hne | hne | ⟨j, hj, hne⟩)
    · exact absurd hx hne
    · exact absurd hlen hne
    · exact absurd (hy j hj) hne
  · rcases exec_next_cases he with ⟨f, rfl⟩ | ⟨hi, v, rfl⟩ | ⟨rfl, -, rfl⟩ | ⟨rfl, rfl⟩ | ⟨rfl, rfl⟩ |
      ⟨rfl, x, len, ys, -, -, rfl | rfl⟩
    · simp
    · exact ⟨fun _ => ⟨rfl, i, hi, hissue⟩, by simp⟩
    · exact ⟨by simp, fun _ => ⟨rfl, hissue⟩, by simp⟩
    · exact ⟨by simp, by simp, fun _ => ⟨rfl, .inl hissue⟩, by simp⟩
    · exact ⟨by simp, by simp, fun _ => ⟨rfl, .inr hissue⟩, by simp⟩
    · exact ⟨by simp, by simp, by simp, fun _ => ⟨rfl, hissue⟩⟩
    · exact ⟨by simp, by simp, by simp, fun _ => ⟨rfl, hissue⟩⟩

/-- Settles O16: the table follows the procedure round by round, and its last entry times 03 is 01. -/
theorem tablesAreTheGeneratedOnes : Obligations.TablesAreTheGeneratedOnes := by
  refine ⟨fun e he => ?_, ?_⟩
  · have heq := ilogf_eq_generated e he
    exact ⟨heq, heq ▸ (logf_ilogf (by omega)).1⟩
  · rw [generated, ← ilogf_eq_generated 254 (by omega)]
    decide

/-- Settles O17: by the two tables, entry by entry. -/
theorem tablesAreMutualInverses : Obligations.TablesAreMutualInverses :=
  ⟨ilogf_logf, fun _ => logf_ilogf, rfl, rfl⟩

/-- Settles O46: a reset event answers `resetUnit` on the state with the host advanced. -/
theorem resetClearsEveryRegister : Obligations.ResetClearsEveryRegister :=
  ⟨reset_registersCleared, fun s h =>
    ⟨_, step_of_reset h, resetUnit_registersCleared s.advanceHost, rfl, rfl, rfl⟩⟩

/-- Settles O48: every register is clear and the reference parameters are legal. -/
theorem resetSatisfiesInvariant : Obligations.ResetSatisfiesInvariant :=
  reset_registersCleared.inv (by unfold CapOk; decide) (Nat.le_refl 0)

/-- Settles O49: advancing the host keeps the invariant, and then so does each of the three events. -/
theorem stepKeepsInvariant : Obligations.StepKeepsInvariant := by
  intro s t inv h
  rcases step_cases h with ⟨-, rfl⟩ | ⟨hn, rfl⟩ | ⟨addr, size, loc, hn, -, rfl⟩ | ⟨addr, size, w, loc, hn, hb, hw⟩
  · exact inv
  · exact (resetUnit_registersCleared _).inv inv.capOk (advanceHost_keeps_inv inv hn).hostIndex
  · exact returnRead_keeps_inv (advanceHost_keeps_inv inv hn) _
  · exact writeLocation_keeps_inv (advanceHost_keeps_inv inv hn) (busTarget_sound hb).1 hw

end Sys2Proof.Machine
end

section
/-! PROOFS. The host port (spec/20_memory.md): the address map both ways, the bytes a location owns, what a read and
a write of a location do and leave alone, which events stop; then the statements about the host port. -/

namespace Sys2Proof.Machine

/-! ### The address map, from locations to offsets -/

/-- Every location lies at a word boundary (R51 to R53). -/
theorem Location.offset_aligned (loc : Location) : loc.offset % 4 = 0 := by
  cases loc with
  | ry j => simp only [Location.offset, ryOffset, ryBase]; omega
  | sx i => simp only [Location.offset, sxOffset, slotOffset]; omega
  | slen i => simp only [Location.offset, slenOffset, slotOffset]; omega
  | sy i j => simp only [Location.offset, syOffset, slotOffset]; omega
  | _ => rfl

/-- Between the control block and the share buffer the map is that of the result-share window (R52). -/
theorem locate_resultWindow {nMax mMax rel : Nat} (hrel : rel < 0xF000) :
    locate nMax mMax (0x1000 + rel) = locateResult mMax rel := by
  simp only [locate, if_neg (show ¬ 0x1000 + rel < 0x1000 by omega), if_pos (show 0x1000 + rel < 0x10000 by omega),
    Nat.add_sub_cancel_left]

/-- In an existing slot of the share buffer the map is that of the slot (R53). -/
theorem locate_slot {nMax mMax i rel : Nat} (hi : i < nMax) (hrel : rel < 0x1000) :
    locate nMax mMax (slotOffset i + rel) = locateSlot mMax i rel := by
  have hquot : (slotOffset i + rel - 0x10000) / 0x1000 = i := by simp only [slotOffset]; omega
  have hrem : (slotOffset i + rel - 0x10000) % 0x1000 = rel := by simp only [slotOffset]; omega
  have hhigh : ¬ slotOffset i + rel < 0x10000 := by simp only [slotOffset]; omega
  have hcontrol : ¬ slotOffset i + rel < 0x1000 := by omega
  simp only [locate, if_neg hcontrol, if_neg hhigh, hquot, hrem, if_pos hi]

theorem locateResult_ry {mMax j : Nat} (hj : j < mMax) : locateResult mMax (0x008 + 4 * j) = some (.ry j) := by
  have hindex : (0x008 + 4 * j - 0x008) / 4 = j := by omega
  simp only [locateResult, hindex, if_pos hj, if_neg (show ¬ 0x008 + 4 * j = 0x000 by omega),
    if_neg (show ¬ 0x008 + 4 * j = 0x004 by omega)]

theorem locateSlot_sy {mMax i j : Nat} (hj : j < mMax) : locateSlot mMax i (0x008 + 4 * j) = some (.sy i j) := by
  have hindex : (0x008 + 4 * j - 0x008) / 4 = j := by omega
  simp only [locateSlot, hindex, if_pos hj, if_neg (show ¬ 0x008 + 4 * j = 0x000 by omega),
    if_neg (show ¬ 0x008 + 4 * j = 0x004 by omega)]

/-- The map finds every mapped location at its offset; `M_MAX` within its bound keeps the y-values inside the result
window and inside their slot (00_scope.md R5, R51 to R53). -/
theorem locate_offset {nMax mMax : Nat} {loc : Location} (hm : mMax ≤ 1022) (h : loc.Mapped nMax mMax) :
    locate nMax mMax loc.offset = some loc := by
  cases loc with
  | ry j =>
    have hj : j < mMax := h
    have window : Location.offset (.ry j) = 0x1000 + (0x008 + 4 * j) := by
      simp only [Location.offset, ryOffset, ryBase]
      omega
    rw [window, locate_resultWindow (rel := 0x008 + 4 * j) (by omega), locateResult_ry hj]
  | sx i => exact locate_slot (rel := 0x000) h (by omega)
  | slen i => exact locate_slot (rel := 0x004) h (by omega)
  | sy i j =>
    obtain ⟨hi, hj⟩ := h
    have slot : Location.offset (.sy i j) = slotOffset i + (0x008 + 4 * j) := Nat.add_assoc ..
    rw [slot, locate_slot (rel := 0x008 + 4 * j) hi (by omega), locateSlot_sy hj]
  | _ => rfl

/-- Two mapped locations at one offset are the same location. -/
theorem Location.eq_of_offset_eq {nMax mMax : Nat} {loc other : Location} (hm : mMax ≤ 1022)
    (h : loc.Mapped nMax mMax) (h' : other.Mapped nMax mMax) (e : other.offset = loc.offset) : other = loc := by
  have found := locate_offset hm h'
  rw [e, locate_offset hm h] at found
  exact (Option.some.inj found).symm

/-- The map finds nothing at a word offset that is no mapped location's. -/
theorem locate_eq_none {nMax mMax off : Nat} (haligned : off % 4 = 0)
    (h : ∀ loc : Location, loc.Mapped nMax mMax → off ≠ loc.offset) : locate nMax mMax off = none := by
  rw [Option.eq_none_iff_forall_not_mem]
  intro loc hloc
  obtain ⟨hmapped, hoff⟩ := locate_sound haligned hloc
  exact h loc hmapped hoff.symm

/-! ### What a bus access reaches -/

theorem busTarget_offset {s : State} {loc : Location} (hcap : CapOk s) (h : loc.Mapped s.nMax s.mMax) :
    busTarget s (s.base + loc.offset) 4 = .next loc := by
  simp [busTarget, Location.offset_aligned, locate_offset hcap.2 h]

/-- A bus access that reaches a location is of the admitted form (R58, R59). -/
theorem wordAccess_of_busTarget {s : State} {addr size : Nat} {loc : Location} (h : busTarget s addr size = .next loc) :
    size = 4 ∧ ∃ loc, Location.Mapped s.nMax s.mMax loc ∧ addr = s.base + loc.offset := by
  obtain ⟨hmapped, haddr, hsize⟩ := busTarget_sound h
  exact ⟨hsize, loc, hmapped, haddr⟩

theorem busTarget_wrongSize {s : State} {addr size : Nat} (hbase : s.base ≤ addr) (hsize : size ≠ 4) :
    busTarget s addr size = .fault .busErrorSize := by
  simp [busTarget, Nat.not_lt.2 hbase, hsize]

theorem busTarget_misaligned {s : State} {addr : Nat} (hbase : s.base ≤ addr) (h : (addr - s.base) % 4 ≠ 0) :
    busTarget s addr 4 = .fault .busErrorMisaligned := by
  simp [busTarget, Nat.not_lt.2 hbase, h]

theorem busTarget_unmapped {s : State} {addr : Nat} (hbase : s.base ≤ addr) (haligned : (addr - s.base) % 4 = 0)
    (h : locate s.nMax s.mMax (addr - s.base) = none) : busTarget s addr 4 = .fault .busErrorUnmapped := by
  simp [busTarget, Nat.not_lt.2 hbase, haligned, h]

/-! ### The step of an access -/

/-- What a location reads does not depend on the host. -/
@[simp] theorem readLocation_advanceHost (s : State) (loc : Location) :
    readLocation s.advanceHost loc = readLocation s loc := by
  cases loc <;> rfl

/-- A step whose event is a read of a mapped location returns its word (R54). -/
theorem step_of_read {s : State} {loc : Location} (hcap : CapOk s) (hmapped : loc.Mapped s.nMax s.mMax)
    (h : nextEvent s = some (.read (s.base + loc.offset) 4)) :
    step s = .next (s.advanceHost.returnRead (readLocation s loc)) := by
  have target := busTarget_offset (s := s.advanceHost) hcap hmapped
  simp only [advanceHost_base] at target
  simp only [step, h, performEvent, target, readLocation_advanceHost]

/-- A step whose event is a write to a mapped location writes it (R55). -/
theorem step_of_write {s : State} {w : Word} {loc : Location} (hcap : CapOk s) (hmapped : loc.Mapped s.nMax s.mMax)
    (h : nextEvent s = some (.write (s.base + loc.offset) 4 w)) : step s = writeLocation s.advanceHost w loc := by
  have target := busTarget_offset (s := s.advanceHost) hcap hmapped
  simp only [advanceHost_base] at target
  simp only [step, h, performEvent, target]

/-- A step whose event is an access with a bus error stops with it (R58, R59, log entry 6). -/
theorem step_of_busError {s : State} {addr size : Nat} {w : Word} {f : Fault}
    (h : nextEvent s = some (.read addr size) ∨ nextEvent s = some (.write addr size w))
    (target : busTarget s addr size = .fault f) : step s = .fault f := by
  have target' : busTarget s.advanceHost addr size = .fault f := target
  rcases h with h | h <;> simp only [step, h, performEvent, target']

/-! ### Host writes complete -/

theorem exec_completes (i : Instr) (s : State) : ∃ t, exec i s = .next t := by
  rcases exec_cases i s with ⟨_, h⟩ | ⟨-, _, h⟩ | ⟨-, -, h⟩ | ⟨-, h⟩ | ⟨-, h⟩ | ⟨-, _, _, _, -, -, h | h⟩ <;>
    exact ⟨_, h⟩

theorem issue_completes (s : State) (w : Word) : ∃ t, issue s w = .next t := by
  rcases issue_cases s w with ⟨i, -, h⟩ | ⟨-, h⟩
  · exact h ▸ exec_completes i s
  · exact ⟨_, h⟩

/-- A host write to any location completes (R55, R57). -/
theorem writeLocation_completes (s : State) (w : Word) (loc : Location) : ∃ t, writeLocation s w loc = .next t := by
  cases loc with
  | cmd => exact issue_completes s w
  | _ => exact ⟨_, rfl⟩

/-- A host write to a read-only location changes nothing (R57). -/
theorem writeLocation_readOnly (s : State) (w : Word) {loc : Location}
    (h : loc ∈ [Location.r, .l, .flags, .cap, .rx, .rlen] ∨ ∃ j, loc = .ry j) : writeLocation s w loc = .next s := by
  rcases h with h | ⟨j, rfl⟩
  · fin_cases h <;> rfl
  · rfl

/-! ### The bytes of memory a location owns -/

/-- The offsets of the bytes of memory that hold a location's word: two for a length, one for another word of the
share buffer or of `RY`, none for a register (log entry 8). -/
def Location.bytes : Location → List Nat
  | .ry j => [ryOffset j]
  | .sx i => [sxOffset i]
  | .slen i => [slenOffset i, slenOffset i + 1]
  | .sy i j => [syOffset i j]
  | _ => []

/-- The bytes of a location lie at its offset, but for the high byte of a length. -/
theorem Location.of_mem_bytes {loc : Location} {off : Nat} (h : off ∈ loc.bytes) :
    off = loc.offset ∨ (∃ i, loc = .slen i) ∧ off = loc.offset + 1 := by
  cases loc with
  | ry | sx | sy => exact .inl (List.mem_singleton.1 h)
  | slen i =>
    rcases List.mem_pair.1 h with rfl | rfl
    · exact .inl rfl
    · exact .inr ⟨⟨i, rfl⟩, rfl⟩
  | _ => cases h

/-- The bytes of a location lie in its word. -/
theorem Location.word_of_mem_bytes {loc : Location} {off : Nat} (h : off ∈ loc.bytes) : off / 4 * 4 = loc.offset := by
  have := loc.offset_aligned
  rcases Location.of_mem_bytes h with rfl | ⟨-, rfl⟩ <;> omega

/-- Two mapped locations share no byte. -/
theorem Location.bytes_disjoint {nMax mMax : Nat} {loc other : Location} (hm : mMax ≤ 1022)
    (h : loc.Mapped nMax mMax) (h' : other.Mapped nMax mMax) (hne : other ≠ loc) {off : Nat}
    (hoff : off ∈ other.bytes) : off ∉ loc.bytes := fun hoff' =>
  hne (Location.eq_of_offset_eq hm h h' ((word_of_mem_bytes hoff).symm.trans (word_of_mem_bytes hoff')))

/-- Under another memory a location reads the same as long as its own bytes do. -/
theorem readLocation_withMem (s : State) (m : Memory) {loc : Location}
    (h : ∀ off ∈ loc.bytes, { s with mem := m }.byteAt off = s.byteAt off) :
    readLocation { s with mem := m } loc = readLocation s loc := by
  cases loc with
  | ry j => simp only [readLocation, State.ry, h (ryOffset j) (by simp [Location.bytes])]
  | sx i => simp only [readLocation, State.sx, h (sxOffset i) (by simp [Location.bytes])]
  | slen i =>
    simp only [readLocation, State.slen, State.halfAt, h (slenOffset i) (by simp [Location.bytes]),
      h (slenOffset i + 1) (by simp [Location.bytes])]
  | sy i j => simp only [readLocation, State.sy, h (syOffset i j) (by simp [Location.bytes])]
  | _ => rfl

/-! ### What a host write stores and leaves alone -/

/-- A host write that issues no command stores at the bytes of its location only. -/
theorem writeLocation_stores_bytes {s t : State} {w : Word} {loc : Location} (hloc : loc ≠ .cmd)
    (h : writeLocation s w loc = .next t) : StoresWithin (· ∈ loc.bytes) s.mem t.mem := by
  cases loc with
  | cmd => exact absurd rfl hloc
  | sx i => cases h; exact .put _ _ (by simp [Location.bytes])
  | slen i =>
    cases h
    exact (StoresWithin.put _ _ (by simp [Location.bytes])).trans (.put _ _ (by simp [Location.bytes]))
  | sy i j => cases h; exact .put _ _ (by simp [Location.bytes])
  | _ => cases h; exact .refl _ _

theorem writeLocation_byteAt {s t : State} {w : Word} {loc : Location} (hloc : loc ≠ .cmd)
    (h : writeLocation s w loc = .next t) {off : Nat} (hoff : off ∉ loc.bytes) : t.byteAt off = s.byteAt off :=
  (writeLocation_stores_bytes hloc h).byteAt_eq (writeLocation_samePlatform h).epoch hoff

theorem writeLocation_draws {s t : State} {w : Word} {loc : Location} (hloc : loc ≠ .cmd)
    (h : writeLocation s w loc = .next t) : t.draws = s.draws := by
  cases loc with
  | cmd => exact absurd rfl hloc
  | _ => cases h; rfl

/-- A host write to a word of memory changes no other part of the state. -/
theorem writeLocation_withMem {s t : State} {w : Word} {loc : Location} (hbytes : loc.bytes ≠ [])
    (h : writeLocation s w loc = .next t) : t = { s with mem := t.mem } := by
  cases loc with
  | ry | sx | slen | sy => cases h; rfl
  | _ => exact absurd rfl hbytes

/-- A host write to a register other than `CMD` leaves the word at every other location alone. -/
theorem writeLocation_register_readLocation {s t : State} {w : Word} {loc other : Location} (hloc : loc ≠ .cmd)
    (hbytes : loc.bytes = []) (hne : other ≠ loc) (h : writeLocation s w loc = .next t) :
    readLocation t other = readLocation s other := by
  cases loc with
  | cmd => exact absurd rfl hloc
  | ry | sx | slen | sy => cases hbytes
  | r | l | flags | cap | rx | rlen => cases h; rfl
  | status | a | b | e | dx | nsh => cases h; cases other <;> simp [readLocation, State.clearSticky] at hne ⊢

/-- A host write that issues no command leaves the word at every other mapped location alone (10_state.md R39). -/
theorem writeLocation_readLocation_other {s t : State} {w : Word} {loc other : Location} (hcap : CapOk s)
    (hloc : loc ≠ .cmd) (hmapped : loc.Mapped s.nMax s.mMax) (hother : other.Mapped s.nMax s.mMax)
    (hne : other ≠ loc) (h : writeLocation s w loc = .next t) : readLocation t other = readLocation s other := by
  by_cases hbytes : loc.bytes = []
  · exact writeLocation_register_readLocation hloc hbytes hne h
  · have ht := writeLocation_withMem hbytes h
    rw [ht]
    refine readLocation_withMem s t.mem fun off hoff => ?_
    rw [← ht]
    exact writeLocation_byteAt hloc h (Location.bytes_disjoint hcap.2 hmapped hother hne hoff)

/-! ### Reading back what was written -/

/-- The low `k` bits of a word, zero-extended, are the word under the mask of `k` ones. -/
theorem zeroExtend_extractLsb' (w : Word) (k : Nat) :
    (w.extractLsb' 0 k).zeroExtend 32 = w &&& (BitVec.allOnes k).zeroExtend 32 := by
  ext i hi
  by_cases h : i < k <;> simp [h, hi]

/-- The implemented bits of a read-write location (R55 (a), R56); none for the locations that are not read-write. -/
def Location.rwMask : Location → Option Word
  | .a | .b | .dx | .sx _ | .sy _ _ => some 0x000000FF
  | .nsh | .slen _ => some 0x0000FFFF
  | .e => some 0xFFFFFFFF
  | _ => none

/-- A read-write location reads back the implemented bits of the word written (R56). -/
theorem readLocation_writeLocation_same {s t : State} {w mask : Word} {loc : Location} (hmask : loc.rwMask = some mask)
    (h : writeLocation s w loc = .next t) : readLocation t loc = w &&& mask := by
  have elem := zeroExtend_extractLsb' w 8
  have half := zeroExtend_extractLsb' w 16
  cases loc with
  | a | b | dx => cases hmask; cases h; exact elem
  | nsh => cases hmask; cases h; exact half
  | e => cases hmask; cases h; exact (BitVec.and_allOnes (x := w)).symm
  | sx i =>
    cases hmask; cases h
    rw [readLocation, State.sx, byteAt_putByte_same]
    exact elem
  | sy i j =>
    cases hmask; cases h
    rw [readLocation, State.sy, byteAt_putByte_same]
    exact elem
  | slen i =>
    cases hmask; cases h
    rw [readLocation, State.slen, halfAt_putHalf_same]
    exact half
  | _ => cases hmask

/-! ### The words of `FLAGS` and `STATUS` as numbers -/

/-- `FLAGS` has `Z`, `EQ`, `LT`, `GT` at weights 1, 2, 4, 8 (42_compare.md R142). -/
theorem flags_toWord_toNat (f : Flags) :
    f.toWord.toNat = f.z.toNat + 2 * f.eq.toNat + 4 * f.lt.toNat + 8 * f.gt.toNat := by
  obtain ⟨z, eq, lt, gt⟩ := f
  revert z eq lt gt
  decide

/-- `STATUS` has `CODE` in its low four bits and `ESTKY` at weight 16 (10_state.md R28). -/
theorem status_toWord_toNat (v : Status) : v.toWord.toNat = v.code.toNat + 16 * v.estky.toNat := by
  obtain ⟨code, estky⟩ := v
  revert code estky
  decide

/-! ### The statements about the host port -/

/-- Settles O38: `locate` undoes `Location.offset` on mapped locations, and `Location.offset` undoes `locate`. -/
theorem addressMapIsExact : Obligations.AddressMapIsExact := by
  refine ⟨rfl, fun i j => ⟨rfl, rfl, rfl, rfl⟩, fun s hcap => ⟨fun loc hmapped => ?_, fun off loc => locate_sound⟩⟩
  exact ⟨locate_offset hcap.2 hmapped, loc.offset_aligned⟩

/-- Settles O39: the read's step by `step_of_read`, and its word by the width of each register and buffer word. -/
theorem hostReadsHaveNoSideEffect : Obligations.HostReadsHaveNoSideEffect := by
  refine ⟨fun s loc hcap hmapped h => step_of_read hcap hmapped h, fun s => ?_⟩
  have elem : ∀ v : Elem, (v.zeroExtend 32).toNat = v.toNat := fun v => BitVec.toNat_setWidth_of_le (by omega)
  have half : ∀ v : Half, (v.zeroExtend 32).toNat = v.toNat := fun v => BitVec.toNat_setWidth_of_le (by omega)
  exact ⟨elem _, elem _, rfl, elem _, elem _, elem _, half _, elem _, half _, rfl, rfl, flags_toWord_toNat _,
    status_toWord_toNat _, fun i j => ⟨elem _, elem _, half _, elem _⟩⟩

/-- Settles O40: a read-write word reads back masked, and only its own bytes, disjoint from those of every other mapped
location, are stored. -/
theorem hostWritesReadBackNarrowed : Obligations.HostWritesReadBackNarrowed := by
  intro s w loc hcap hmapped hrw _ hevent
  have hloc : loc ≠ .cmd := by rintro rfl; simp at hrw
  obtain ⟨t, ht⟩ := writeLocation_completes s.advanceHost w loc
  obtain ⟨-, hbase, hhost, hepoch⟩ := writeLocation_samePlatform ht
  have hdraws : t.draws = s.draws := writeLocation_draws (s := s.advanceHost) hloc ht
  have stored : ∀ off, off ∉ loc.bytes → t.byteAt off = s.byteAt off := fun off => writeLocation_byteAt hloc ht
  refine ⟨t, (step_of_write hcap hmapped hevent).trans ht, fun h => ?_, fun h => ?_, fun h => ?_,
    fun other hne hother => ?_, fun h off => stored off ?_, fun off hoff hhigh => stored off fun hmem => ?_,
    hhost, hbase, hepoch, hdraws⟩
  · refine readLocation_writeLocation_same ?_ ht
    rcases h with h | ⟨i, rfl⟩ | ⟨i, j, rfl⟩
    · fin_cases h <;> rfl
    · rfl
    · rfl
  · refine readLocation_writeLocation_same ?_ ht
    rcases h with rfl | ⟨i, rfl⟩ <;> rfl
  · subst h
    exact (readLocation_writeLocation_same rfl ht).trans BitVec.and_allOnes
  · rw [← readLocation_advanceHost s]
    exact writeLocation_readLocation_other hcap hloc hmapped hother hne ht
  · fin_cases h <;> exact List.not_mem_nil
  · rcases Location.of_mem_bytes hmem with h | ⟨hslen, h⟩
    · exact hoff h
    · exact hhigh hslen h

/-- Settles O41: the write of a read-only location answers the state as it is. -/
theorem readOnlyWritesAreIgnored : Obligations.ReadOnlyWritesAreIgnored := by
  intro s w loc hcap hmapped hro
  exact ⟨fun hevent => (step_of_write hcap hmapped hevent).trans (writeLocation_readOnly s.advanceHost w hro), rfl⟩

/-- Settles O44: the step stops with the bus error of `busTarget`, and the map finds nothing at an offset that is no
mapped location's. -/
theorem otherAccessesAreBusErrors : Obligations.OtherAccessesAreBusErrors := by
  intro s addr size w _ hbase hevent
  refine ⟨fun hsize => ?_, ?_, ?_⟩
  · exact step_of_busError hevent (busTarget_wrongSize hbase hsize)
  · rintro rfl hmisaligned
    exact step_of_busError hevent (busTarget_misaligned hbase hmisaligned)
  · rintro rfl haligned hunmapped
    have nothing : locate s.nMax s.mMax (addr - s.base) = none :=
      locate_eq_none haligned fun loc hmapped e => hunmapped loc hmapped (by omega)
    exact step_of_busError hevent (busTarget_unmapped hbase haligned nothing)

/-- Settles O45: an access that reaches a location is an admitted one, and an admitted one reaches its location, where
reads and writes complete. -/
theorem exactlyTheAdmittedEventsRun : Obligations.ExactlyTheAdmittedEventsRun := by
  intro s event hcap hevent
  constructor
  · rintro ⟨t, ht⟩
    rcases step_cases ht with ⟨hn, -⟩ | ⟨hn, -⟩ | ⟨addr, size, loc, hn, target, -⟩ |
        ⟨addr, size, w, loc, hn, target, -⟩ <;>
      cases hevent.symm.trans hn
    · trivial
    · exact wordAccess_of_busTarget target
    · exact wordAccess_of_busTarget target
  · intro hadmitted
    cases event with
    | reset => exact ⟨_, step_of_reset hevent⟩
    | read addr size =>
      obtain ⟨rfl, loc, hmapped, rfl⟩ := hadmitted
      exact ⟨_, step_of_read hcap hmapped hevent⟩
    | write addr size w =>
      obtain ⟨rfl, loc, hmapped, rfl⟩ := hadmitted
      rw [step_of_write hcap hmapped hevent]
      exact writeLocation_completes s.advanceHost w loc

end Sys2Proof.Machine
end

section
/-! PROOFS. Command words and their issue (spec/30_encoding.md): the decoder as the inverse of the encoder, the two
checks on a word, what a command of the field computes from its operands, and a run of host writes; then the statements
about the encoding. -/

namespace Sys2Proof.Machine

/-! ### The decoder and the encoder -/

/-- The opcode map finds the row of a command at the command's word (R71). -/
theorem decode_encode (i : Instr) : decode (encode i) = .ok i := by
  cases i <;> rfl

theorem decode_eq_ok_iff {w : Word} {i : Instr} : decode w = .ok i ↔ w = encode i :=
  ⟨eq_encode_of_decode, fun h => h ▸ decode_encode i⟩

/-- The rows of the opcode map are the commands with their words (R71). -/
theorem mem_opcodeTable_iff {w : Word} {i : Instr} :
    (w, i) ∈ opcodeTable.map (fun row => (row.matchWord, row.command)) ↔ w = encode i := by
  constructor
  · intro h
    obtain ⟨row, hrow, he⟩ := List.mem_map.1 h
    cases he
    exact (opcodeTable_row_exact row hrow).2
  · rintro rfl
    cases i <;> decide

/-- On a 32-bit row the table decoder is the decoder. -/
theorem decodeTableWord_toNat_of_decode {w : Word} {i : Instr} (h : decode w = .ok i) :
    decodeTableWord 32 w.toNat = some i := by
  simp [decodeTableWord, Nat.mod_eq_of_lt w.isLt, h]

/-! ### The two checks on a command word -/

/-- The command word of every command passes both checks (R70, R75). -/
theorem commandWordWellFormed_encode : ∀ i, commandWordWellFormed (encode i) = true
  | .add => Laws.CommandWordLegal.add.2
  | .sub => Laws.CommandWordLegal.sub.2
  | .mul => Laws.CommandWordLegal.mul.2
  | .div => Laws.CommandWordLegal.div.2
  | .neg => Laws.CommandWordLegal.neg.2
  | .pos => Laws.CommandWordLegal.pos.2
  | .log => Laws.CommandWordLegal.log.2
  | .exp => Laws.CommandWordLegal.exp.2
  | .pow => Laws.CommandWordLegal.pow.2
  | .tst => Laws.CommandWordLegal.tst.2
  | .cmp => Laws.CommandWordLegal.cmp.2
  | .interp => Laws.CommandWordLegal.interp.2

/-- Every assigned opcode is in the opcode map (R71, R75). -/
theorem exists_row_of_opcodeAssigned : ∀ b : BitVec 8, opcodeAssigned (b.zeroExtend 32) = true →
    ∃ row ∈ opcodeTable, row.matchWord = b.zeroExtend 32 := by
  decide

/-- A word with `ZERO` clear is its low byte (R70). -/
theorem eq_zeroExtend_of_zeroFieldClear {w : Word} (h : zeroFieldClear w = true) :
    w = (w.extractLsb' 0 8).zeroExtend 32 := by
  have hlt : w.toNat < 256 := of_decide_eq_true h
  apply BitVec.eq_of_toNat_eq
  simp only [BitVec.toNat_setWidth, BitVec.extractLsb'_toNat, Nat.shiftRight_zero]
  omega

/-- A word passes both checks iff it is a command's (R75). -/
theorem commandWordWellFormed_iff (w : Word) : commandWordWellFormed w = true ↔ ∃ i, decode w = .ok i := by
  constructor
  · intro h
    obtain ⟨hzero, hopcode⟩ := Bool.and_eq_true_iff.1 h
    have hw := eq_zeroExtend_of_zeroFieldClear hzero
    obtain ⟨row, hrow, hmatch⟩ := exists_row_of_opcodeAssigned _ (hw ▸ hopcode)
    exact ⟨row.command, decode_eq_ok_iff.2 (hw.trans (hmatch.symm.trans (opcodeTable_row_exact row hrow).2))⟩
  · rintro ⟨i, hi⟩
    rw [decode_eq_ok_iff.1 hi]
    exact commandWordWellFormed_encode i

/-! ### Issuing a word -/

theorem issue_of_decode {s : State} {w : Word} {i : Instr} (h : decode w = .ok i) : issue s w = exec i s := by
  simp only [issue, h]

theorem issue_of_illegal {s : State} {w : Word} (h : ∀ i, decode w ≠ .ok i) :
    issue s w = .next (s.raise .illegalCommand) := by
  rcases issue_cases s w with ⟨i, hi, -⟩ | ⟨-, hissue⟩
  · exact absurd hi (h i)
  · exact hissue

/-- The map finds every register whatever the parameters are (20_memory.md R51, R52). -/
theorem locate_register {nMax mMax : Nat} {loc : Location} (h : loc.bytes = []) :
    locate nMax mMax loc.offset = some loc := by
  cases loc with
  | ry | sx | slen | sy => cases h
  | _ => rfl

/-- A step whose event is a write to a register writes it, whatever the parameters are (20_memory.md R55). -/
theorem step_of_register_write {s : State} {w : Word} {loc : Location} (hbytes : loc.bytes = [])
    (h : nextEvent s = some (.write (s.base + loc.offset) 4 w)) : step s = writeLocation s.advanceHost w loc := by
  have target : busTarget s.advanceHost (s.base + loc.offset) 4 = .next loc := by
    simp [busTarget, Location.offset_aligned, locate_register hbytes]
  simp only [step, h, performEvent, target]

theorem step_of_issues {s : State} {w : Word} (h : Issues s w) : step s = issue s.advanceHost w :=
  step_of_register_write (loc := .cmd) rfl h

/-! ### The commands of the field and their operands -/

/-- The commands with an element result complete with, or fail by, a function of `A`, `B` and `E` (R73). -/
theorem exec_eq_completeElem {i : Instr} (hi : i ∈ [Instr.add, .sub, .mul, .div, .neg, .pos, .exp, .pow])
    (a b : Elem) (e : Word) :
    ∃ o, ∀ s : State, s.a = a → s.b = b → s.e = e → exec i s = completeElem s o := by
  fin_cases hi
  · exact ⟨.ok (a ^^^ b), by rintro s rfl rfl rfl; rfl⟩
  · exact ⟨.ok (a ^^^ b), by rintro s rfl rfl rfl; rfl⟩
  · exact ⟨.ok (gmul a b), by rintro s rfl rfl rfl; rfl⟩
  · exact ⟨gdiv a b, by rintro s rfl rfl rfl; rfl⟩
  · exact ⟨.ok a, by rintro s rfl rfl rfl; rfl⟩
  · exact ⟨.ok a, by rintro s rfl rfl rfl; rfl⟩
  · exact ⟨.ok (gexp e.toInt), by rintro s rfl rfl rfl; rfl⟩
  · exact ⟨gpow a e.toInt, by rintro s rfl rfl rfl; rfl⟩

theorem failureCode_ne_zero (f : Failure) : failureCode f ≠ 0 := by cases f <;> decide

/-- Two commands with the same element outcome leave the same code and, on success, the same `R`. -/
theorem completeElem_agree {o : Except Failure Elem} {s s' t t' : State} (h : completeElem s o = .next t)
    (h' : completeElem s' o = .next t') :
    t'.status.code = t.status.code ∧ (t.status.code = 0 → t'.r = t.r) := by
  cases o with
  | ok v => cases h; cases h'; exact ⟨rfl, fun _ => rfl⟩
  | error f => cases h; cases h'; exact ⟨rfl, fun h0 => absurd h0 (failureCode_ne_zero f)⟩

theorem exec_log_of_zero {s : State} (h : s.a = 0x00) : exec .log s = .next (s.raise .logOfZero) :=
  if_pos h

theorem exec_log_of_nonzero {s : State} (h : s.a ≠ 0x00) :
    exec .log s = .next (s.setL (BitVec.ofNat 8 (logf s.a))).succeed :=
  if_neg h

/-- LOG's code and, on success, `L` depend on `A` only (41_log_exp_pow.md R120). -/
theorem exec_log_agree {s s' t t' : State} (ha : s'.a = s.a) (h : exec .log s = .next t)
    (h' : exec .log s' = .next t') : t'.status.code = t.status.code ∧ (t.status.code = 0 → t'.l = t.l) := by
  by_cases hz : s.a = 0x00
  · cases (exec_log_of_zero hz).symm.trans h
    cases (exec_log_of_zero (ha.trans hz)).symm.trans h'
    exact ⟨rfl, fun h0 => absurd h0 (failureCode_ne_zero .logOfZero)⟩
  · cases (exec_log_of_nonzero hz).symm.trans h
    cases (exec_log_of_nonzero (ha ▸ hz)).symm.trans h'
    exact ⟨rfl, fun _ => by simp [ha]⟩

/-! ### A run of host writes -/

theorem SamePlatform.nMax_eq {s t : State} (h : SamePlatform s t) : t.nMax = s.nMax := by
  simp only [State.nMax, h.cap]

theorem SamePlatform.mMax_eq {s t : State} (h : SamePlatform s t) : t.mMax = s.mMax := by
  simp only [State.mMax, h.cap]

theorem run_succ_of_step {s u : State} (k : Nat) (h : step s = .next u) :
    Host.Core.run core (k + 1) s = Host.Core.run core k u := by
  have hcore : core.step s = .next u := h
  simp only [Host.Core.run, hcore]

/-- A step that writes a read-write word: it reads back masked, every other mapped word reads as before, and the index
moves past the event (20_memory.md R55, R56). -/
theorem step_of_readWrite_write {s : State} {w mask : Word} {loc : Location} (hcap : CapOk s)
    (hmapped : loc.Mapped s.nMax s.mMax) (hmask : loc.rwMask = some mask)
    (h : nextEvent s = some (.write (s.base + loc.offset) 4 w)) :
    ∃ u, step s = .next u ∧ SamePlatform s.advanceHost u ∧ readLocation u loc = w &&& mask ∧
      ∀ other, other.Mapped s.nMax s.mMax → other ≠ loc → readLocation u other = readLocation s other := by
  have hloc : loc ≠ .cmd := by rintro rfl; cases hmask
  obtain ⟨u, hu⟩ := writeLocation_completes s.advanceHost w loc
  refine ⟨u, (step_of_write hcap hmapped h).trans hu, writeLocation_samePlatform hu,
    readLocation_writeLocation_same hmask hu, fun other hother hne => ?_⟩
  rw [← readLocation_advanceHost s]
  exact writeLocation_readLocation_other hcap hloc hmapped hother hne hu

/-- The host transactions that write these words to these locations, in order. -/
def writeEvents (base : Nat) (writes : List (Location × Word)) : List HostEvent :=
  writes.map fun p => asmWr base p.1 p.2

/-- With such writes to come, to different mapped read-write words, the run completes: each word written reads back
masked, and every other mapped word reads as before (20_memory.md R55, R56, 10_state.md R39). -/
theorem run_writeEvents {writes : List (Location × Word)} {s : State} (hcap : CapOk s)
    (hlocs : ∀ loc ∈ writes.map Prod.fst, loc.Mapped s.nMax s.mMax ∧ loc.rwMask ≠ none)
    (hnodup : (writes.map Prod.fst).Nodup)
    (hevents : s.host.program.drop s.host.index = writeEvents s.base writes) :
    ∃ t, Host.Core.run core writes.length s = .next t ∧
      (∀ loc w mask, (loc, w) ∈ writes → loc.rwMask = some mask → readLocation t loc = w &&& mask) ∧
      ∀ other, other.Mapped s.nMax s.mMax → other ∉ writes.map Prod.fst →
        readLocation t other = readLocation s other := by
  induction writes generalizing s with
  | nil => exact ⟨s, rfl, by simp, fun _ _ _ => rfl⟩
  | cons p writes ih =>
    obtain ⟨loc, w⟩ := p
    obtain ⟨⟨hloc, hreadWrite⟩, hlocs⟩ := List.forall_mem_cons.1 hlocs
    obtain ⟨hfresh, hnodup⟩ := List.nodup_cons.1 hnodup
    obtain ⟨mask, hmask⟩ := Option.ne_none_iff_exists'.1 hreadWrite
    have hnext : nextEvent s = some (.write (s.base + loc.offset) 4 w) := by
      rw [nextEvent, ← List.head?_drop, hevents]
      rfl
    obtain ⟨u, hstep, hplatform, hsame, hother⟩ := step_of_readWrite_write hcap hloc hmask hnext
    have hn : u.nMax = s.nMax := hplatform.nMax_eq
    have hM : u.mMax = s.mMax := hplatform.mMax_eq
    have hrest : u.host.program.drop u.host.index = writeEvents u.base writes := by
      rw [hplatform.host, hplatform.base, advanceHost_host, ← List.tail_drop, hevents]
      rfl
    obtain ⟨t, hrun, hwritten, hkept⟩ := ih (s := u) (by simpa only [CapOk, hn, hM] using hcap)
      (by simpa only [hn, hM] using hlocs) hnodup hrest
    rw [hn, hM] at hkept
    refine ⟨t, (run_succ_of_step _ hstep).trans hrun, fun loc' w' mask' hp hmask' => ?_, fun other hmap hnot => ?_⟩
    · rcases List.mem_cons.1 hp with he | hp
      · cases he
        cases hmask.symm.trans hmask'
        exact (hkept loc hloc hfresh).trans hsame
      · exact hwritten loc' w' mask' hp hmask'
    · obtain ⟨hne, hnot⟩ := not_or.1 (mt List.mem_cons.2 hnot)
      exact (hkept other hmap hnot).trans (hother other hmap hne)

/-! ### The writes of the pseudo-instruction `share` -/

/-- The locations and words `share` writes (R81). -/
def shareWrites (i : Nat) (x : Elem) (ys : List Elem) : List (Location × Word) :=
  (.sx i, x.zeroExtend 32) :: (.slen i, BitVec.ofNat 32 ys.length) ::
    ys.zipIdx.map fun (y, j) => (.sy i j, y.zeroExtend 32)

theorem asmShare_eq_writeEvents (base i : Nat) (x : Elem) (ys : List Elem) :
    asmShare base i x ys = writeEvents base (shareWrites i x ys) := by
  simp [asmShare, writeEvents, shareWrites, Function.comp_def]

/-- `share` writes to `SX`, `SLEN` and each `SY` of its slot once. -/
theorem shareWrites_locations (i : Nat) (x : Elem) (ys : List Elem) :
    (shareWrites i x ys).map Prod.fst = .sx i :: .slen i :: (List.range ys.length).map (.sy i) := by
  have hindex : ys.zipIdx.map Prod.snd = List.range ys.length := by
    rw [List.zipIdx_map_snd, List.range_eq_range']
  rw [← hindex, List.map_map, shareWrites, List.map_cons, List.map_cons, List.map_map]
  rfl

theorem mem_shareWrites_locations {i : Nat} {x : Elem} {ys : List Elem} {loc : Location} :
    loc ∈ (shareWrites i x ys).map Prod.fst ↔
      loc = .sx i ∨ loc = .slen i ∨ ∃ j, j < ys.length ∧ loc = .sy i j := by
  simp [shareWrites_locations, eq_comm]

/-- `share` within capacity writes to mapped read-write words. -/
theorem shareWrites_locations_ok {nMax mMax i : Nat} {x : Elem} {ys : List Elem} (hi : i < nMax)
    (hlen : ys.length ≤ mMax) :
    ∀ loc ∈ (shareWrites i x ys).map Prod.fst, loc.Mapped nMax mMax ∧ loc.rwMask ≠ none := by
  intro loc hloc
  rcases mem_shareWrites_locations.1 hloc with rfl | rfl | ⟨j, hj, rfl⟩
  · exact ⟨hi, by simp [Location.rwMask]⟩
  · exact ⟨hi, by simp [Location.rwMask]⟩
  · exact ⟨⟨hi, by omega⟩, by simp [Location.rwMask]⟩

theorem not_mem_shareWrites_of_other_slot {i k : Nat} {x : Elem} {ys : List Elem} {loc : Location} (hk : k ≠ i)
    (h : loc = .sx k ∨ loc = .slen k ∨ ∃ j, loc = .sy k j) : loc ∉ (shareWrites i x ys).map Prod.fst := by
  intro hmem
  rcases mem_shareWrites_locations.1 hmem with rfl | rfl | ⟨j, -, rfl⟩ <;> simp [hk.symm] at h

theorem shareWrites_locations_nodup (i : Nat) (x : Elem) (ys : List Elem) :
    ((shareWrites i x ys).map Prod.fst).Nodup := by
  have hsy : ((List.range ys.length).map (Location.sy i)).Nodup :=
    List.nodup_range.map fun j k h => by injection h
  simp [shareWrites_locations, hsy]

theorem sx_mem_shareWrites {i : Nat} {x : Elem} {ys : List Elem} :
    (Location.sx i, x.zeroExtend 32) ∈ shareWrites i x ys :=
  List.mem_cons_self

theorem slen_mem_shareWrites {i : Nat} {x : Elem} {ys : List Elem} :
    (Location.slen i, BitVec.ofNat 32 ys.length) ∈ shareWrites i x ys :=
  List.mem_cons_of_mem _ List.mem_cons_self

theorem sy_mem_shareWrites {i j : Nat} {x : Elem} {ys : List Elem} (h : j < ys.length) :
    (Location.sy i j, ys[j].zeroExtend 32) ∈ shareWrites i x ys := by
  refine List.mem_cons_of_mem _ (List.mem_cons_of_mem _ (List.mem_map.2 ⟨(ys[j], j), ?_, rfl⟩))
  exact List.mem_zipIdx_iff_getElem?.2 (List.getElem?_eq_getElem h)

theorem zeroExtend_injective {k : Nat} (hk : k ≤ 32) : Function.Injective fun v : BitVec k => v.zeroExtend 32 := by
  intro u v h
  have htoNat := congrArg BitVec.toNat h
  simp only [BitVec.toNat_setWidth_of_le hk] at htoNat
  exact BitVec.eq_of_toNat_eq htoNat

/-- A value zero-extended to a word is what the bits of its width read back. -/
theorem eq_of_zeroExtend_eq_masked {k : Nat} (hk : k ≤ 32) {u v : BitVec k}
    (h : u.zeroExtend 32 = v.zeroExtend 32 &&& (BitVec.allOnes k).zeroExtend 32) : u = v := by
  have hlow : (v.zeroExtend 32).extractLsb' 0 k = v := by
    ext j hj
    simp [show j < 32 by omega, BitVec.getLsbD_eq_getElem hj]
  rw [← zeroExtend_extractLsb', hlow] at h
  exact zeroExtend_injective hk h

/-! ### The statements about the encoding -/

/-- Settles O3: the decoder undoes the encoder, and only a command's word decodes to it. -/
theorem encodeDecodeRoundTrip : Obligations.EncodeDecodeRoundTrip := fun i _ =>
  ⟨decode_encode i, decodeTableWord_toNat_of_decode (decode_encode i), fun _ => eq_encode_of_decode⟩

/-- Settles O2: a word decodes to a command iff it is the command's word, which the list gives row by row. -/
theorem opcodeMapIsExact : Obligations.OpcodeMapIsExact := by
  refine ⟨fun w i => ?_, fun s => ⟨rfl, rfl⟩⟩
  exact decode_eq_ok_iff.trans mem_opcodeTable_iff.symm

/-- Settles O4: the words that pass both checks are those that decode. -/
theorem illegalWordsFailWithCode7 : Obligations.IllegalWordsFailWithCode7 := by
  intro s w
  refine ⟨fun h => issue_of_illegal fun i hi => ?_, fun h => ?_⟩
  · have hlegal := (commandWordWellFormed_iff w).2 ⟨i, hi⟩
    rw [h] at hlegal
    cases hlegal
  · obtain ⟨i, hi⟩ := (commandWordWellFormed_iff w).1 h
    exact ⟨i, hi, issue_of_decode hi⟩

/-- Settles O36: a command with an element result has the same element outcome from both states, LOG, TST and CMP by
their own equations. -/
theorem fieldCommandsReadOnlyTheirOperands : Obligations.FieldCommandsReadOnlyTheirOperands := by
  intro s s' t t' i hi ha hb he h h'
  by_cases helem : i ∈ [Instr.add, .sub, .mul, .div, .neg, .pos, .exp, .pow]
  · obtain ⟨o, ho⟩ := exec_eq_completeElem helem s.a s.b s.e
    rw [ho s rfl rfl rfl] at h
    rw [ho s' ha hb he] at h'
    obtain ⟨hcode, hr⟩ := completeElem_agree h h'
    refine ⟨hcode, fun h0 => ⟨fun _ => hr h0, ?_, ?_, ?_⟩⟩ <;> rintro rfl <;> simp at helem
  · cases i with
    | log =>
      obtain ⟨hcode, hl⟩ := exec_log_agree ha h h'
      exact ⟨hcode, fun h0 => ⟨by simp, fun _ => hl h0, by simp, by simp⟩⟩
    | tst =>
      cases h; cases h'
      refine ⟨rfl, fun _ => ⟨by simp, by simp, fun _ => ?_, by simp⟩⟩
      simp only [succeed_flags, setFlags_flags, State.operandA, ha]
      rfl
    | cmp =>
      cases h; cases h'
      refine ⟨rfl, fun _ => ⟨by simp, by simp, by simp, fun _ => ?_⟩⟩
      simp only [succeed_flags, setFlags_flags, State.operandA, State.operandB, ha, hb]
      exact ⟨rfl, rfl, rfl⟩
    | interp => exact absurd rfl hi
    | _ => exact absurd (by decide) helem

/-- Settles O50: `share` is a run of writes to different words of its slot, and no word of another slot. -/
theorem shareLinesStoreTheShare : Obligations.ShareLinesStoreTheShare := by
  intro s i x ys hcap hi hlen hprogram hindex
  have hevents : s.host.program.drop s.host.index = writeEvents s.base (shareWrites i x ys) := by
    rw [hindex, List.drop_zero, hprogram, asmShare_eq_writeEvents]
  obtain ⟨t, hrun, hwritten, hkept⟩ :=
    run_writeEvents hcap (shareWrites_locations_ok hi hlen) (shareWrites_locations_nodup i x ys) hevents
  have hbound : ys.length ≤ 1022 := hlen.trans hcap.2
  have hlength : (shareWrites i x ys).length = ys.length + 2 := by simp [shareWrites]
  have hother : ∀ {k loc}, k ≠ i → _ → loc ∉ (shareWrites i x ys).map Prod.fst := not_mem_shareWrites_of_other_slot
  refine ⟨t, hlength ▸ hrun, ?_, ?_, fun j hj => ?_, fun k hk hne => ⟨?_, ?_, fun j hj => ?_⟩⟩
  · exact eq_of_zeroExtend_eq_masked (by omega) (hwritten _ _ _ sx_mem_shareWrites rfl)
  · have hread : (t.slen i).zeroExtend 32 = _ := hwritten _ _ _ slen_mem_shareWrites rfl
    have hword : BitVec.ofNat 32 ys.length = (BitVec.ofNat 16 ys.length).zeroExtend 32 :=
      BitVec.eq_of_toNat_eq (by simp; omega)
    rw [hword] at hread
    rw [eq_of_zeroExtend_eq_masked (by omega) hread, BitVec.toNat_ofNat, Nat.mod_eq_of_lt (by omega)]
  · exact eq_of_zeroExtend_eq_masked (by omega) (hwritten _ _ _ (sy_mem_shareWrites hj) rfl)
  · exact zeroExtend_injective (k := 8) (by omega) (hkept (.sx k) hk (hother hne (.inl rfl)))
  · exact zeroExtend_injective (k := 16) (by omega) (hkept (.slen k) hk (hother hne (.inr (.inl rfl))))
  · exact zeroExtend_injective (k := 8) (by omega) (hkept (.sy k j) ⟨hk, hj⟩ (hother hne (.inr (.inr ⟨j, rfl⟩))))

/-- Settles O1: each of the four words is the word of its command. -/
theorem sampleWordsDecode : Obligations.SampleWordsDecode :=
  ⟨decode_encode .add, decode_encode .div, decode_encode .pow, decode_encode .interp⟩

/-- Settles O5: the write to `CMD` issues its word, and the issue of a word depends on whether it decodes. -/
theorem stepRunsTheIssuedCommand : Obligations.StepRunsTheIssuedCommand := by
  refine ⟨fun s w h => ?_, fun s w => ?_⟩
  · have hstep := step_of_issues h
    exact ⟨hstep, fun i hi => hstep.trans (issue_of_decode hi), fun hw => hstep.trans (issue_of_illegal hw)⟩
  · have hword : BitVec.ofNat 32 (w.toNat % 2 ^ 32) = w := by
      rw [Nat.mod_eq_of_lt w.isLt, BitVec.ofNat_toNat, BitVec.setWidth_eq]
    show some (issueEvent s.base (BitVec.ofNat 32 (w.toNat % 2 ^ 32))) = some (issueEvent s.base w)
    rw [hword]

end Sys2Proof.Machine
end

section
/-! PROOFS. Field arithmetic (spec/40_field_arithmetic.md): the elements other than 00 as the powers `gexp z` of the
generator, on which MUL adds and DIV subtracts exponents; the table product as polynomial multiplication; then the
statements about ADD, SUB, NEG, POS, MUL and DIV. -/

namespace Sys2Proof.Machine

/-! ### The powers of the generator -/

/-- The exponent matters modulo 255 only (41_log_exp_pow.md R122). -/
theorem gexp_congr {y z : Int} (h : y % 255 = z % 255) : gexp y = gexp z := by
  simp only [gexp, emod255, h]

theorem emod255_le (z : Int) : emod255 z ≤ 254 := by
  unfold emod255
  omega

theorem gexp_ne_zero (z : Int) : gexp z ≠ 0x00 := (logf_ilogf (emod255_le z)).2

theorem logf_gexp (z : Int) : logf (gexp z) = emod255 z := (logf_ilogf (emod255_le z)).1

theorem gexp_logf {v : Elem} (hv : v ≠ 0x00) : gexp (logf v) = v := by
  obtain ⟨hinverse, hle⟩ := ilogf_logf v hv
  have hreduced : emod255 (logf v) = logf v := by
    unfold emod255
    omega
  rw [gexp, hreduced, hinverse]

/-- Every element is 00 or a power of the generator (10_state.md R34). -/
theorem eq_zero_or_gexp (v : Elem) : v = 0x00 ∨ ∃ z : Int, v = gexp z :=
  (eq_or_ne v 0x00).imp_right fun hv => ⟨logf v, (gexp_logf hv).symm⟩

theorem exists_gexp_eq {v : Elem} (hv : v ≠ 0x00) : ∃ z : Int, v = gexp z := (eq_zero_or_gexp v).resolve_left hv

/-- The table closes its cycle: after entry 254 a round of the generation procedure is at 01 again (10_state.md R33). -/
theorem gexp_succ (z : Int) : gexp (z + 1) = times3 (gexp z) := by
  by_cases hlast : emod255 z = 254
  · have hnext : emod255 (z + 1) = 0 := by
      unfold emod255 at *
      omega
    rw [gexp, gexp, hlast, hnext]
    decide
  · have hle := emod255_le z
    have hnext : emod255 (z + 1) = emod255 z + 1 := by
      unfold emod255 at *
      omega
    rw [gexp, gexp, hnext, ilogf_succ (by omega)]

/-! ### Polynomial multiplication -/

/-- Multiplication by x is additive, the reduction included. -/
theorem xtime_xor (v w : Elem) : xtime (v ^^^ w) = xtime v ^^^ xtime w := by
  have hreduction : ∀ p q : Bool, (if (p ^^ q) = true then (0x1B : Elem) else 0x00) =
      (if p = true then 0x1B else 0x00) ^^^ (if q = true then 0x1B else 0x00) := by decide
  simp only [xtime, BitVec.shiftLeft_xor_distrib, BitVec.getLsbD_xor, hreduction]
  ac_rfl

theorem times3_xor (v w : Elem) : times3 (v ^^^ w) = times3 v ^^^ times3 w := by
  simp only [times3, xtime_xor]
  ac_rfl

theorem times3_zero : times3 0x00 = 0x00 := by decide

theorem times3_xtime (v : Elem) : times3 (xtime v) = xtime (times3 v) := by
  simp only [times3, xtime_xor]

/-- A factor of 03 passes out of a product. -/
theorem mulBits_times3 (k : Nat) (a b : Elem) : mulBits k (times3 a) b = times3 (mulBits k a b) := by
  induction k generalizing a b with
  | zero => exact times3_zero.symm
  | succ k ih =>
    have hbit : (if b.getLsbD 0 then times3 a else 0x00) = times3 (if b.getLsbD 0 then a else 0x00) := by
      cases b.getLsbD 0 with
      | true => rfl
      | false => exact times3_zero.symm
    simp only [mulBits, hbit, ← times3_xtime, ih, times3_xor]

theorem mulBits_xor_right (k : Nat) (a b c : Elem) : mulBits k a (b ^^^ c) = mulBits k a b ^^^ mulBits k a c := by
  induction k generalizing a b c with
  | zero => exact BitVec.xor_self.symm
  | succ k ih =>
    have hbit : (if (b ^^^ c).getLsbD 0 then a else 0x00) =
        (if b.getLsbD 0 then a else 0x00) ^^^ (if c.getLsbD 0 then a else 0x00) := by
      rw [BitVec.getLsbD_xor]
      cases b.getLsbD 0 <;> cases c.getLsbD 0 <;> simp
    simp only [mulBits, hbit, BitVec.ushiftRight_xor_distrib, ih]
    ac_rfl

theorem polyMul_times3 (a b : Elem) : polyMul (times3 a) b = times3 (polyMul a b) := mulBits_times3 8 a b

theorem polyMul_xor_right (a b c : Elem) : polyMul a (b ^^^ c) = polyMul a b ^^^ polyMul a c :=
  mulBits_xor_right 8 a b c

theorem polyMul_zero_right (a : Elem) : polyMul a 0x00 = 0x00 := by
  have h := polyMul_xor_right a 0x00 0x00
  rwa [BitVec.xor_self, BitVec.xor_self] at h

theorem polyMul_zero_left : ∀ b : Elem, polyMul 0x00 b = 0x00 := by decide

theorem polyMul_one_left : ∀ b : Elem, polyMul 0x01 b = b := by decide

/-- A natural power times any power: each factor 03 is one round of the generation procedure. -/
theorem polyMul_gexp_natCast (n : Nat) (z : Int) : polyMul (gexp n) (gexp z) = gexp (n + z) := by
  induction n with
  | zero =>
    rw [Nat.cast_zero, Int.zero_add]
    exact polyMul_one_left _
  | succ n ih =>
    calc polyMul (gexp (n + 1)) (gexp z) = times3 (polyMul (gexp n) (gexp z)) := by rw [gexp_succ, polyMul_times3]
      _ = gexp (n + z + 1) := by rw [ih, gexp_succ]
      _ = gexp ((n + 1 : Nat) + z) := by rw [Nat.cast_succ, add_right_comm]

/-- A product of powers has the sum of the exponents, without the logarithm table on the left side. -/
theorem polyMul_gexp (y z : Int) : polyMul (gexp y) (gexp z) = gexp (y + z) := by
  have hreduced : ((emod255 y : Nat) : Int) % 255 = y % 255 := by
    unfold emod255
    omega
  rw [← gexp_congr hreduced, polyMul_gexp_natCast]
  exact gexp_congr (by omega)

/-! ### The product by the tables -/

theorem gmul_zero_left (b : Elem) : gmul 0x00 b = 0x00 := if_pos (.inl rfl)

theorem gmul_zero_right (a : Elem) : gmul a 0x00 = 0x00 := if_pos (.inr rfl)

theorem gmul_of_nonzero {a b : Elem} (ha : a ≠ 0x00) (hb : b ≠ 0x00) : gmul a b = gexp (logf a + logf b) :=
  if_neg (not_or.2 ⟨ha, hb⟩)

theorem gmul_gexp (y z : Int) : gmul (gexp y) (gexp z) = gexp (y + z) := by
  rw [gmul_of_nonzero (gexp_ne_zero y) (gexp_ne_zero z), logf_gexp, logf_gexp]
  apply gexp_congr
  unfold emod255
  omega

/-- The product by the tables is the polynomial product (40_field_arithmetic.md R104). -/
theorem gmul_eq_polyMul (a b : Elem) : gmul a b = polyMul a b := by
  rcases eq_zero_or_gexp a with rfl | ⟨y, rfl⟩
  · rw [gmul_zero_left, polyMul_zero_left]
  rcases eq_zero_or_gexp b with rfl | ⟨z, rfl⟩
  · rw [gmul_zero_right, polyMul_zero_right]
  · rw [gmul_gexp, polyMul_gexp]

theorem gmul_comm (a b : Elem) : gmul a b = gmul b a := by
  simp only [gmul, or_comm, Int.add_comm]

theorem gmul_assoc (a b c : Elem) : gmul (gmul a b) c = gmul a (gmul b c) := by
  rcases eq_zero_or_gexp a with rfl | ⟨x, rfl⟩
  · simp only [gmul_zero_left]
  rcases eq_zero_or_gexp b with rfl | ⟨y, rfl⟩
  · simp only [gmul_zero_left, gmul_zero_right]
  rcases eq_zero_or_gexp c with rfl | ⟨z, rfl⟩
  · simp only [gmul_zero_right]
  · simp only [gmul_gexp, Int.add_assoc]

theorem gmul_xor_right (a b c : Elem) : gmul a (b ^^^ c) = gmul a b ^^^ gmul a c := by
  simp only [gmul_eq_polyMul, polyMul_xor_right]

theorem gmul_one_right (a : Elem) : gmul a 0x01 = a := by
  rw [gmul_comm, gmul_eq_polyMul, polyMul_one_left]

/-! ### The quotient by the tables -/

theorem gdiv_zero_divisor (a : Elem) : gdiv a 0x00 = .error .divideByZero := if_pos rfl

theorem gdiv_zero_dividend {b : Elem} (hb : b ≠ 0x00) : gdiv 0x00 b = .ok 0x00 := by
  rw [gdiv, if_neg hb, if_pos rfl]

/-- The two cases of R105: the difference of the logarithms, plus 255 where it is negative. -/
theorem gdiv_of_nonzero {a b : Elem} (ha : a ≠ 0x00) (hb : b ≠ 0x00) :
    gdiv a b = .ok (ilogf (if logf a < logf b then logf a + 255 - logf b else logf a - logf b)) := by
  have hle := (ilogf_logf b hb).2
  rw [gdiv, if_neg hb, if_neg ha]
  dsimp only
  congr 2
  split <;> split <;> omega

theorem gdiv_gexp (y z : Int) : gdiv (gexp y) (gexp z) = .ok (gexp (y - z)) := by
  rw [gdiv_of_nonzero (gexp_ne_zero y) (gexp_ne_zero z), logf_gexp, logf_gexp, gexp]
  congr 2
  unfold emod255
  split <;> omega

/-- A quotient is the product with the inverse of the divisor (40_field_arithmetic.md R109). -/
theorem gdiv_eq_gmul_inverse (a : Elem) {b : Elem} (hb : b ≠ 0x00) :
    ∃ inverse, gdiv 0x01 b = .ok inverse ∧ gmul inverse b = 0x01 ∧ gdiv a b = .ok (gmul a inverse) := by
  obtain ⟨z, rfl⟩ := exists_gexp_eq hb
  refine ⟨gexp (0 - z), gdiv_gexp 0 z, ?_, ?_⟩
  · rw [gmul_gexp, Int.sub_add_cancel]
    rfl
  · rcases eq_zero_or_gexp a with rfl | ⟨y, rfl⟩
    · rw [gdiv_zero_dividend hb, gmul_zero_left]
    · rw [gdiv_gexp, gmul_gexp, Int.zero_sub, Int.sub_eq_add_neg]

/-- A quotient times its divisor is the dividend (40_field_arithmetic.md R109). -/
theorem exists_gdiv_exact (a : Elem) {b : Elem} (hb : b ≠ 0x00) : ∃ q, gdiv a b = .ok q ∧ gmul q b = a := by
  obtain ⟨inverse, -, hinverse, hq⟩ := gdiv_eq_gmul_inverse a hb
  exact ⟨_, hq, by rw [gmul_assoc, hinverse, gmul_one_right]⟩

theorem gdiv_gmul_cancel (a : Elem) {b : Elem} (hb : b ≠ 0x00) : gdiv (gmul a b) b = .ok a := by
  obtain ⟨z, rfl⟩ := exists_gexp_eq hb
  rcases eq_zero_or_gexp a with rfl | ⟨y, rfl⟩
  · rw [gmul_zero_left, gdiv_zero_dividend hb]
  · rw [gmul_gexp, gdiv_gexp, Int.add_sub_cancel]

/-! ### The commands -/

/-- A command that completes after writing `R` has changed nothing else but `STATUS` (60_exceptions.md R204). -/
theorem writesR_setR_succeed (s : State) (v : Elem) : WritesR s (s.setR v).succeed v where
  result := rfl
  success := rfl
  l := rfl
  flags := rfl
  frame := ⟨⟨rfl, rfl, rfl, rfl, rfl, rfl, rfl, rfl, rfl⟩, rfl, rfl, fun _ => rfl, rfl⟩

theorem exec_add (s : State) : exec .add s = .next (s.setR (s.a ^^^ s.b)).succeed := rfl

theorem exec_sub (s : State) : exec .sub s = .next (s.setR (s.a ^^^ s.b)).succeed := rfl

theorem exec_neg (s : State) : exec .neg s = .next (s.setR s.a).succeed := rfl

theorem exec_pos (s : State) : exec .pos s = .next (s.setR s.a).succeed := rfl

theorem exec_mul (s : State) : exec .mul s = .next (s.setR (gmul s.a s.b)).succeed := rfl

theorem exec_div (s : State) : exec .div s = completeElem s (gdiv s.a s.b) := rfl

theorem r_of_exec_add {s t : State} (h : exec .add s = .next t) : t.r = s.a ^^^ s.b := by
  cases (exec_add s).symm.trans h
  rfl

/-! ### The statements about field arithmetic -/

/-- Settles O9: MUL writes `gmul`, which is the polynomial product. -/
theorem mulIsPolynomialMultiplication : Obligations.MulIsPolynomialMultiplication := by
  intro s
  refine ⟨_, exec_mul s, gmul_eq_polyMul s.a s.b ▸ writesR_setR_succeed s _, fun hzero => if_pos hzero, ?_⟩
  intro ha hb
  exact gmul_of_nonzero ha hb

/-- Settles O10: DIV answers as `gdiv` does, whose quotient is exact for the table product and so for the polynomial
one. -/
theorem divIsExactOrFails : Obligations.DivIsExactOrFails := by
  refine fun s => ⟨fun hb => ?_, fun hb => ⟨s.raise .divideByZero, ?_, rfl⟩⟩
  · obtain ⟨q, hq, hexact⟩ := exists_gdiv_exact s.a hb
    refine ⟨(s.setR q).succeed, q, by rw [exec_div, hq]; rfl, writesR_setR_succeed s q,
      gmul_eq_polyMul q s.b ▸ hexact, fun ha => ?_, fun ha hle => ?_, fun ha hlt => ?_⟩
    · rw [ha, gdiv_zero_dividend hb] at hq
      exact (Except.ok.inj hq).symm
    · rw [gdiv_of_nonzero ha hb, if_neg (Nat.not_lt.2 hle)] at hq
      exact (Except.ok.inj hq).symm
    · rw [gdiv_of_nonzero ha hb, if_pos hlt] at hq
      exact (Except.ok.inj hq).symm
  · rw [exec_div, hb, gdiv_zero_divisor]
    rfl

/-- Settles O19: on powers of the generator the laws are those of adding exponents; distributivity is the polynomial
product's. -/
theorem multiplicationLaws : Obligations.MultiplicationLaws := fun a b c =>
  ⟨gmul_comm a b, gmul_assoc a b c, gmul_xor_right a b c, gmul_one_right a, gmul_zero_right a, gdiv_gmul_cancel a⟩

/-- Settles O20: the quotient is the product with the inverse, which cancels the divisor. -/
theorem divisionLaws : Obligations.DivisionLaws := by
  refine fun a b => ⟨fun hb => ?_, gdiv_zero_divisor a, gdiv_zero_dividend⟩
  obtain ⟨inverse, hinverse, -, hproduct⟩ := gdiv_eq_gmul_inverse a hb
  obtain ⟨q, hq, hexact⟩ := exists_gdiv_exact a hb
  exact ⟨q, inverse, hq, hexact, hinverse, Except.ok.inj (hq.symm.trans hproduct)⟩

/-- Settles O7: both complete with `A xor B` in `R`. -/
theorem addAndSubAreXor : Obligations.AddAndSubAreXor := fun s =>
  ⟨⟨_, exec_add s, writesR_setR_succeed s _⟩, ⟨_, exec_sub s, writesR_setR_succeed s _⟩⟩

/-- Settles O8: both complete with `A` in `R`. -/
theorem negAndPosAreIdentity : Obligations.NegAndPosAreIdentity := fun s =>
  ⟨⟨_, exec_neg s, writesR_setR_succeed s _⟩, ⟨_, exec_pos s, writesR_setR_succeed s _⟩⟩

/-- Settles O18: the laws are those of exclusive-or, through what ADD leaves in `R`. -/
theorem addLawsOfCommands : Obligations.AddLawsOfCommands := by
  intro s t u h
  have ht := r_of_exec_add h
  refine ⟨fun hswapped => ?_, fun hagain => ?_, fun heq => ?_, fun hzero => ?_⟩
  · exact (r_of_exec_add hswapped).trans ((BitVec.xor_comm s.b s.a).trans ht.symm)
  · calc u.r = t.r ^^^ s.b := r_of_exec_add hagain
      _ = s.a := by rw [ht, BitVec.xor_assoc, BitVec.xor_self, BitVec.xor_zero]
  · rw [ht, heq]
    exact BitVec.xor_self
  · rw [ht, hzero]
    exact BitVec.xor_zero

end Sys2Proof.Machine
end

section
/-! PROOFS. Logarithm, exponential and power (spec/41_log_exp_pow.md): on a power `gexp x` of the generator, LOG is the
reduced exponent, POW multiplies the exponent, and repeated polynomial multiplication does the same without the tables;
then the statements about LOG, EXP and POW. -/

namespace Sys2Proof.Machine

/-! ### Powers of the generator and their exponents -/

/-- The reduction modulo 255 is the floor modulo, also of a negative integer (00_scope.md R9). -/
theorem emod255_cast (z : Int) : (emod255 z : Int) = z % 255 := Int.toNat_of_nonneg (Int.emod_nonneg z (by decide))

theorem gexp_zero : gexp 0 = 0x01 := rfl

theorem gexp_one : gexp 1 = 0x03 := rfl

theorem gexp_emod255 (z : Int) : gexp (emod255 z) = gexp z :=
  gexp_congr (by rw [emod255_cast, Int.emod_emod])

/-- A factor of the exponent may be reduced before the multiplication (R124). -/
theorem gexp_emod_mul (z x : Int) : gexp (z % 255 * x) = gexp (z * x) :=
  gexp_congr ((Int.mod_modEq z 255).mul_right x)

theorem logf_gexp_cast (z : Int) : (logf (gexp z) : Int) = z % 255 := by rw [logf_gexp, emod255_cast]

theorem gexp_period (z : Int) : gexp (z + 255) = gexp z := gexp_congr (Int.add_emod_right z 255)

/-- Only exponents divisible by 255 give 01 (10_state.md R34). -/
theorem gexp_eq_one_iff (z : Int) : gexp z = 0x01 ↔ z % 255 = 0 := by
  constructor
  · intro h
    calc z % 255 = logf 0x01 := by rw [← logf_gexp_cast, h]
      _ = 0 := by decide
  · exact gexp_congr (z := 0)

/-- Opposite powers of the generator are inverse elements (R123). -/
theorem gmul_gexp_neg (z : Int) : gmul (gexp z) (gexp (-z)) = 0x01 := by
  rw [gmul_gexp, Int.add_right_neg, gexp_zero]

/-! ### Repeated polynomial multiplication -/

/-- Multiplying by one power again and again multiplies its exponent. -/
theorem polyPow_gexp (x : Int) (n : Nat) : polyPow (gexp x) n = gexp (x * n) := by
  induction n with
  | zero => rw [polyPow, Nat.cast_zero, Int.mul_zero, gexp_zero]
  | succ n ih => rw [polyPow, ih, polyMul_gexp, Nat.cast_succ, Int.mul_add, Int.mul_one]

theorem polyPow_generator (n : Nat) : polyPow 0x03 n = gexp n := by
  rw [← gexp_one, polyPow_gexp, Int.one_mul]

theorem polyPow_zero_base {n : Nat} (hn : 1 ≤ n) : polyPow 0x00 n = 0x00 := by
  obtain ⟨k, rfl⟩ := Nat.exists_eq_add_of_le' hn
  exact polyMul_zero_right _

/-! ### The power by the tables -/

theorem gpow_zero_base_of_pos {z : Int} (hz : 0 < z) : gpow 0x00 z = .ok 0x00 := by
  rw [gpow, if_pos rfl, if_pos hz]

theorem gpow_zero_base_of_nonpos {z : Int} (hz : z ≤ 0) : gpow 0x00 z = .error .domainError := by
  rw [gpow, if_pos rfl, if_neg (Int.not_lt.2 hz)]

/-- A power of a nonzero base has the product of the exponent with the logarithm as its exponent; the reduced exponent 0
of R124 is no exception. -/
theorem gpow_of_nonzero {a : Elem} (ha : a ≠ 0x00) (z : Int) : gpow a z = .ok (gexp (z * logf a)) := by
  have hproduct : gexp (emod255 z * logf a : Nat) = gexp (z * logf a) := by
    rw [Nat.cast_mul, emod255_cast, gexp_emod_mul]
  rw [gpow, if_neg ha, ← hproduct]
  dsimp only
  split
  · next hzero => rw [hzero, Nat.zero_mul, Nat.cast_zero, gexp_zero]
  · rfl

theorem gpow_gexp (x z : Int) : gpow (gexp x) z = .ok (gexp (x * z)) := by
  rw [gpow_of_nonzero (gexp_ne_zero x), logf_gexp_cast, Int.mul_comm, gexp_emod_mul]

/-- The powers of a nonzero element that are 01 are those at the multiples of its period (R125). -/
theorem gpow_eq_one_iff {a : Elem} (ha : a ≠ 0x00) (n : Nat) :
    gpow a n = .ok 0x01 ↔ 255 / Nat.gcd 255 (logf a) ∣ n := by
  have hperiod : 255 / Nat.gcd 255 (logf a) ∣ n ↔ 255 ∣ logf a * n := by
    rw [Nat.div_dvd_iff_dvd_mul (Nat.gcd_dvd_left ..) (Nat.gcd_pos_of_pos_left _ (by decide)),
      Nat.dvd_gcd_mul_iff_dvd_mul]
  rw [gpow_of_nonzero ha, Except.ok.injEq, gexp_eq_one_iff, hperiod, Nat.mul_comm, ← Nat.cast_mul]
  omega

/-- A positive power is repeated multiplication, of the zero base too (R125). -/
theorem gpow_eq_polyPow (a : Elem) {n : Nat} (hn : 1 ≤ n) : gpow a n = .ok (polyPow a n) := by
  rcases eq_zero_or_gexp a with rfl | ⟨x, rfl⟩
  · rw [gpow_zero_base_of_pos (by omega), polyPow_zero_base hn]
  · rw [gpow_gexp, polyPow_gexp]

/-! ### The commands -/

theorem exec_exp (s : State) : exec .exp s = .next (s.setR (gexp s.e.toInt)).succeed := rfl

theorem exec_pow (s : State) : exec .pow s = completeElem s (gpow s.a s.e.toInt) := rfl

theorem exec_pow_ok {s : State} {v : Elem} (h : gpow s.a s.e.toInt = .ok v) :
    exec .pow s = .next (s.setR v).succeed := by rw [exec_pow, h]; rfl

theorem exec_pow_error {s : State} {f : Failure} (h : gpow s.a s.e.toInt = .error f) :
    exec .pow s = .next (s.raise f) := by rw [exec_pow, h]; rfl

/-- A command that completes after writing `L` stays within the frame of the field commands. -/
theorem fieldFrame_setL_succeed (s : State) (v : BitVec 8) : FieldFrame s (s.setL v).succeed :=
  ⟨⟨rfl, rfl, rfl, rfl, rfl, rfl, rfl, rfl, rfl⟩, rfl, rfl, fun _ => rfl, rfl⟩

/-! ### The statements about LOG, EXP and POW -/

/-- Settles O11: LOG writes `logf`, which fits `L` and undoes the powers of the generator. -/
theorem logIsTheDiscreteLogarithm : Obligations.LogIsTheDiscreteLogarithm := by
  refine fun s => ⟨fun ha => ?_, fun ha => ⟨_, exec_log_of_zero ha, rfl⟩⟩
  have hle := (ilogf_logf s.a ha).2
  have hfits : (BitVec.ofNat 8 (logf s.a)).toNat = logf s.a := by
    rw [BitVec.toNat_ofNat, Nat.mod_eq_of_lt (by omega)]
  have hpower : polyPow 0x03 (logf s.a) = s.a := (polyPow_generator _).trans (gexp_logf ha)
  exact ⟨_, exec_log_of_nonzero ha, hfits, Nat.lt_succ_of_le (logf_toNat_le ha), hfits.symm ▸ hpower, rfl, rfl, rfl,
    fieldFrame_setL_succeed s _⟩

/-- Settles O12: EXP writes `gexp`, a table entry at the reduced exponent and as such never 00. -/
theorem expIsThePowerOfTheGenerator : Obligations.ExpIsThePowerOfTheGenerator := fun s =>
  ⟨_, exec_exp s, writesR_setR_succeed s _,
    ((polyPow_generator (emod255 s.e.toInt)).trans (gexp_emod255 s.e.toInt)).symm, gexp_ne_zero _⟩

/-- Settles O13: POW answers as `gpow` does, which for a nonzero base multiplies the exponent with the logarithm. -/
theorem powByCases : Obligations.PowByCases := by
  intro s
  refine ⟨fun ha hz => ?_, fun ha hz => ?_, fun ha hz => ?_, fun ha _ => ?_⟩
  · have hpow : gpow s.a s.e.toInt = .ok 0x00 := ha ▸ gpow_zero_base_of_pos hz
    exact ⟨_, exec_pow_ok hpow, writesR_setR_succeed s _⟩
  · have hpow : gpow s.a s.e.toInt = .error .domainError := ha ▸ gpow_zero_base_of_nonpos hz
    exact ⟨_, exec_pow_error hpow, rfl⟩
  · have hone : gexp (s.e.toInt * logf s.a) = 0x01 :=
      (gexp_eq_one_iff _).2 (by rw [Int.mul_emod, hz, Int.zero_mul, Int.zero_emod])
    exact ⟨_, exec_pow_ok (gpow_of_nonzero ha _), hone ▸ writesR_setR_succeed s _⟩
  · exact ⟨_, exec_pow_ok (gpow_of_nonzero ha _), gexp_emod_mul s.e.toInt (logf s.a) ▸ writesR_setR_succeed s _⟩

/-- Settles O21: `logf` of a power is its reduced exponent, and MUL and DIV add and subtract exponents. -/
theorem logarithmLaws : Obligations.LogarithmLaws := by
  refine ⟨fun e he => ?_, fun v hv => gexp_logf hv, fun a b ha hb => ?_⟩
  · have := logf_gexp_cast e
    omega
  · obtain ⟨y, rfl⟩ := exists_gexp_eq ha
    obtain ⟨z, rfl⟩ := exists_gexp_eq hb
    refine ⟨?_, gexp (y - z), gdiv_gexp y z, ?_⟩
    · simp only [gmul_gexp, logf_gexp_cast, Int.emod_add_emod, Int.add_emod_emod]
    · simp only [logf_gexp_cast, Int.emod_sub_emod, Int.sub_emod_emod]

/-- Settles O22: the exponents add, matter modulo 255, and 03 is the power with exponent 1. -/
theorem exponentialLaws : Obligations.ExponentialLaws := by
  refine fun y z => ⟨gexp_period z, gmul_gexp y z, ?_, ?_⟩
  · rw [gmul_comm, gmul_gexp_neg]
  · rw [← gexp_one, gpow_gexp, Int.one_mul]

/-- Settles O23: the period by the divisors of 255, the laws of exponents through `gpow_gexp`, and repeated
multiplication. -/
theorem powerLaws : Obligations.PowerLaws := by
  refine ⟨fun a ha => ⟨⟨_, rfl, ?_, ?_, ?_, fun i hpos hlt hone => ?_⟩, fun y z => ?_⟩,
    fun a z hz => gpow_eq_polyPow a hz⟩
  · exact Nat.div_dvd_of_dvd (Nat.gcd_dvd_left ..)
  · exact Nat.div_gcd_pos_of_pos_left _ (by decide)
  · exact (gpow_eq_one_iff ha _).2 dvd_rfl
  · exact Nat.not_dvd_of_pos_of_lt hpos hlt ((gpow_eq_one_iff ha i).1 hone)
  · obtain ⟨x, rfl⟩ := exists_gexp_eq ha
    refine ⟨_, _, _, gpow_gexp x y, gpow_gexp x z, gpow_gexp x (y + z), ?_, ?_, _, gpow_gexp x (-y), ?_⟩
    · rw [gmul_gexp, Int.mul_add]
    · rw [gpow_gexp, Int.mul_add]
      exact congrArg _ (gexp_congr (Int.add_mul_emod_self_right ..))
    · rw [Int.mul_neg, gmul_gexp_neg]

end Sys2Proof.Machine
end

section
/-! PROOFS. Test and compare (spec/42_compare.md): the flags TST and CMP compute, and the words in which the host reads
`FLAGS` and `STATUS`; then the statements about them. -/

namespace Sys2Proof.Machine

/-! ### The flags and the commands that write them -/

/-- TST's `Z` is the zero test (R140). -/
theorem zeroFlags_z_iff (f : Flags) (v : Elem) : (zeroFlags f v).z = true ↔ v = 0x00 := decide_eq_true_iff

theorem compareFlags_eq_iff (f : Flags) (v w : Elem) : (compareFlags f v w).eq = true ↔ v = w :=
  decide_eq_true_iff.trans BitVec.toNat_inj

theorem compareFlags_lt_iff (f : Flags) (v w : Elem) : (compareFlags f v w).lt = true ↔ v < w :=
  decide_eq_true_iff.trans BitVec.lt_def.symm

theorem compareFlags_gt_iff (f : Flags) (v w : Elem) : (compareFlags f v w).gt = true ↔ w < v :=
  decide_eq_true_iff.trans BitVec.lt_def.symm

theorem exec_tst (s : State) : exec .tst s = .next (s.setFlags (zeroFlags s.flags s.a)).succeed := rfl

theorem exec_cmp (s : State) : exec .cmp s = .next (s.setFlags (compareFlags s.flags s.a s.b)).succeed := rfl

/-- A command that completes after writing `FLAGS` stays within the frame of the field commands. -/
theorem fieldFrame_setFlags_succeed (s : State) (f : Flags) : FieldFrame s (s.setFlags f).succeed :=
  ⟨⟨rfl, rfl, rfl, rfl, rfl, rfl, rfl, rfl, rfl⟩, rfl, rfl, fun _ => rfl, rfl⟩

/-! ### The bits of `FLAGS` and `STATUS` -/

/-- A word below `2 ^ n` has zeros from bit `n` on. -/
theorem getLsbD_eq_false_of_toNat_lt {x : Word} {n k : Nat} (hx : x.toNat < 2 ^ n) (hk : n ≤ k) :
    x.getLsbD k = false :=
  Nat.testBit_lt_two_pow (hx.trans_le (Nat.pow_le_pow_right (by decide) hk))

/-- `FLAGS` is built by appending the flags bit by bit, `GT` first and `Z` last (R142). -/
theorem flags_toWord_low_bits (f : Flags) :
    f.toWord.getLsbD 0 = f.z ∧ f.toWord.getLsbD 1 = f.eq ∧ f.toWord.getLsbD 2 = f.lt ∧
      f.toWord.getLsbD 3 = f.gt := by
  have append_zero : ∀ {w} {x : BitVec w} {b : Bool}, (x ++ BitVec.ofBool b).getLsbD 0 = b :=
    BitVec.getLsbD_concat_zero
  have append_succ : ∀ {w k} {x : BitVec w} {b : Bool}, (x ++ BitVec.ofBool b).getLsbD (k + 1) = x.getLsbD k :=
    BitVec.getLsbD_concat_succ
  exact ⟨append_zero, append_succ.trans append_zero, append_succ.trans (append_succ.trans append_zero),
    append_succ.trans (append_succ.trans (append_succ.trans append_zero))⟩

/-- Four flags of weights 1, 2, 4 and 8 add up to less than 16 (R142). -/
theorem flags_toWord_lt (f : Flags) : f.toWord.toNat < 2 ^ 4 := by
  have hz := f.z.toNat_le
  have heq := f.eq.toNat_le
  have hlt := f.lt.toNat_le
  have hgt := f.gt.toNat_le
  rw [flags_toWord_toNat]
  omega

theorem status_toWord_code (v : Status) : v.toWord.extractLsb' 0 4 = v.code := BitVec.extractLsb'_append_eq_right

/-- Bit 4 of `STATUS` stands right above the four bits of `CODE` (10_state.md R28). -/
theorem status_toWord_estky (v : Status) : v.toWord.getLsbD 4 = v.estky :=
  BitVec.getLsbD_append.trans BitVec.getLsbD_concat_zero

/-- A four-bit code and a flag of weight 16 add up to less than 32 (10_state.md R28). -/
theorem status_toWord_lt (v : Status) : v.toWord.toNat < 2 ^ 5 := by
  have hcode := v.code.isLt
  have hestky := v.estky.toNat_le
  rw [status_toWord_toNat]
  omega

/-! ### The statements about TST, CMP and the two words -/

/-- Settles O14: TST writes `zeroFlags`, whose other flags are the old ones. -/
theorem tstSetsZ : Obligations.TstSetsZ := fun s =>
  ⟨_, exec_tst s, zeroFlags_z_iff s.flags s.a, rfl, rfl, rfl, rfl, rfl, rfl, fieldFrame_setFlags_succeed s _⟩

/-- Settles O15: CMP writes `compareFlags`, whose `Z` is the old one. -/
theorem cmpIsTheUnsignedComparison : Obligations.CmpIsTheUnsignedComparison := fun s =>
  ⟨_, exec_cmp s, compareFlags_eq_iff s.flags s.a s.b, compareFlags_lt_iff s.flags s.a s.b,
    compareFlags_gt_iff s.flags s.a s.b, rfl, rfl, rfl, rfl, fieldFrame_setFlags_succeed s _⟩

/-- Settles O42: the named bits by the concatenations, the zeros above them by the size of the words. -/
theorem flagsAndStatusPacking : Obligations.FlagsAndStatusPacking := by
  intro s
  obtain ⟨hz, heq, hlt, hgt⟩ := flags_toWord_low_bits s.flags
  exact ⟨⟨hz, heq, hlt, hgt, fun _ => getLsbD_eq_false_of_toNat_lt (flags_toWord_lt s.flags)⟩,
    status_toWord_code s.status, status_toWord_estky s.status,
    fun _ => getLsbD_eq_false_of_toNat_lt (status_toWord_lt s.status)⟩

end Sys2Proof.Machine
end

section
/-! PROOFS. Interpolation (spec/43_interpolation.md): what INTERP does in each of its cases; the closed form as the
value at `DX` of Mathlib's interpolation polynomial over the field of the elements, and the accumulated value as the
closed form; then the statements about INTERP. -/

namespace Sys2Proof.Machine

/-! ### The checks and the matching slots -/

theorem interpChecks_of_nMax_lt {s : State} (h : s.nMax < s.nsh.toNat) :
    interpChecks s = .error .capacityExceeded := if_pos h

theorem interpChecks_of_lt_two {s : State} (hmax : s.nsh.toNat ≤ s.nMax) (h : s.nsh.toNat < 2) :
    interpChecks s = .error .tooFewShares := (if_neg (Nat.not_lt.2 hmax)).trans (if_pos h)

theorem interpChecks_of_mMax_lt {s : State} (hmax : s.nsh.toNat ≤ s.nMax) (htwo : 2 ≤ s.nsh.toNat)
    (h : ∃ i, i < s.nsh.toNat ∧ s.mMax < (s.slen i).toNat) : interpChecks s = .error .capacityExceeded := by
  obtain ⟨i, hi, hlt⟩ := h
  have hany := (any_slotLens s s.shareCount fun len => decide (s.mMax < len.toNat)).2 ⟨i, hi, decide_eq_true hlt⟩
  exact (if_neg (Nat.not_lt.2 hmax)).trans ((if_neg (Nat.not_lt.2 htwo)).trans (if_pos hany))

theorem interpChecks_of_slen_ne {s : State} (hmax : s.nsh.toNat ≤ s.nMax) (htwo : 2 ≤ s.nsh.toNat)
    (hfit : ∀ i, i < s.nsh.toNat → (s.slen i).toNat ≤ s.mMax) (h : ∃ i, i < s.nsh.toNat ∧ s.slen i ≠ s.slen 0) :
    interpChecks s = .error .mismatchedShareWidth := by
  have hfits : ¬ (s.slotLens s.shareCount).any (fun len => decide (s.mMax < len.toNat)) = true := by
    rw [any_slotLens]
    rintro ⟨i, hi, hlt⟩
    exact absurd (of_decide_eq_true hlt) (Nat.not_lt.2 (hfit i hi))
  obtain ⟨i, hi, hne⟩ := h
  have hany := (any_slotLens s s.shareCount fun len => decide (len ≠ s.slen 0)).2 ⟨i, hi, decide_eq_true hne⟩
  exact (if_neg (Nat.not_lt.2 hmax)).trans
    ((if_neg (Nat.not_lt.2 htwo)).trans ((if_neg hfits).trans (if_pos hany)))

/-- The conditions of the model's checks are those of `ChecksPass` (43_interpolation.md R152). -/
theorem interpChecks_eq_ok_iff_checksPass {s : State} {m : Nat} : interpChecks s = .ok m ↔ ChecksPass s m := by
  rw [interpChecks_ok_iff]
  constructor
  · rintro ⟨hmax, htwo, hfit, hsame, rfl⟩
    exact ⟨hmax, htwo, hfit, fun i hi => by rw [hsame i hi]⟩
  · rintro ⟨hmax, htwo, hfit, hsame⟩
    have hzero := hsame 0 (by omega)
    exact ⟨hmax, htwo, hfit, fun i hi => BitVec.eq_of_toNat_eq ((hsame i hi).trans hzero.symm), hzero.symm⟩

theorem hasDuplicateX_eq_true_iff (s : State) :
    hasDuplicateX (s.slotXs s.shareCount) = true ↔ ¬ DistinctXs s := by
  rw [hasDuplicateX_iff, DistinctXs]
  constructor
  · rintro ⟨i, k, hik, hk, heq⟩ hdistinct
    exact hdistinct i k (hik.trans hk) hk hik.ne heq
  · intro h
    push Not at h
    obtain ⟨i, k, hi, hk, hne, heq⟩ := h
    rcases Nat.lt_or_gt_of_ne hne with hlt | hgt
    · exact ⟨i, k, hlt, hk, heq⟩
    · exact ⟨k, i, hgt, hi, heq.symm⟩

/-- A single matching share is returned without a choice. -/
theorem freeSlot_singleton (s : State) (k : Nat) : freeSlot s [k] k = k :=
  List.mem_singleton.1 (freeSlot_mem s k [])

theorem freeSlot_spec {s : State} {n k : Nat} {ks : List Nat} (hmatch : matchingSlots s n = k :: ks) :
    freeSlot s (k :: ks) k < n ∧ s.sx (freeSlot s (k :: ks) k) = s.dx :=
  (mem_matchingSlots s n _).1 (hmatch ▸ freeSlot_mem s k ks)

/-! ### INTERP, one lemma for each case -/

/-- Writing the result share stores its y-values and leaves every other byte and register alone, whether or not a
free choice is counted. -/
theorem writesShare_setResult {s t : State} {len : Half} {y : Nat → Elem}
    (ht : t = (s.setResult s.dx len ((List.range len.toNat).map y)).succeed ∨
      t = (s.setResult s.dx len ((List.range len.toNat).map y)).countDraw.succeed) :
    WritesShare s t len.toNat y := by
  have hry : ∀ j, j < len.toNat → (s.setResult s.dx len ((List.range len.toNat).map y)).ry j = y j := fun j hj =>
    (ry_setResult_inside s _ _ _ j (by simpa using hj)).trans (by simp)
  have hother : ∀ off, (∀ j, j < len.toNat → off ≠ ryOffset j) →
      (s.setResult s.dx len ((List.range len.toNat).map y)).byteAt off = s.byteAt off := fun off hoff =>
    byteAt_setResult_outside s _ _ _ off (by simpa using hoff)
  rcases ht with rfl | rfl <;>
    exact ⟨rfl, rfl, rfl, hry, hother, rfl, rfl, rfl, ⟨rfl, rfl, rfl, rfl, rfl, rfl, rfl, rfl, rfl⟩⟩

theorem exec_interp_of_error {s : State} {f : Failure} (h : interpChecks s = .error f) :
    exec .interp s = .next (s.raise f) := by
  simp only [exec, execInterp, h, failed]

theorem exec_interp_of_matching {s : State} {m k : Nat} {ks : List Nat} (hchecks : ChecksPass s m)
    (hmatch : matchingSlots s s.shareCount = k :: ks) :
    ∃ t, exec .interp s = .next t ∧ WritesShare s t m (s.sy (freeSlot s (k :: ks) k)) := by
  obtain ⟨hlt, hx⟩ := freeSlot_spec hmatch
  have hreturn : ∃ t, exec .interp s = .next t ∧ (t = (returnShare s (freeSlot s (k :: ks) k)).succeed ∨
      t = (returnShare s (freeSlot s (k :: ks) k)).countDraw.succeed) := by
    simp only [exec, execInterp, interpChecks_eq_ok_iff_checksPass.2 hchecks, hmatch]
    cases ks with
    | nil => exact ⟨_, rfl, .inl (by rw [freeSlot_singleton])⟩
    | cons k' ks => exact ⟨_, rfl, .inr rfl⟩
  obtain ⟨t, hexec, ht⟩ := hreturn
  rw [returnShare, hx] at ht
  exact ⟨t, hexec, hchecks.sameLength _ hlt ▸ writesShare_setResult ht⟩

theorem exec_interp_of_duplicate {s : State} {m : Nat} (hchecks : ChecksPass s m)
    (hmatch : matchingSlots s s.shareCount = []) (hdup : ¬ DistinctXs s) :
    exec .interp s = .next (s.raise .duplicateXValue) := by
  simp only [exec, execInterp, interpChecks_eq_ok_iff_checksPass.2 hchecks, hmatch,
    if_pos ((hasDuplicateX_eq_true_iff s).2 hdup), failed]

theorem exec_interp_of_distinct {s : State} {m : Nat} (hchecks : ChecksPass s m)
    (hmatch : matchingSlots s s.shareCount = []) (hdistinct : DistinctXs s) :
    ∃ t, exec .interp s = .next t ∧ WritesShare s t m fun j =>
      accumulate (basisLogs s.dx (s.slotXs s.shareCount)) (s.positionYs s.shareCount j) := by
  obtain rfl := hchecks.sameLength 0 (Nat.zero_lt_two.trans_le hchecks.atLeastTwo)
  refine ⟨(s.setResult s.dx (s.slen 0) (interpolatedYs s s.shareCount (s.slen 0).toNat)).succeed, ?_,
    writesShare_setResult (.inl rfl)⟩
  have hnodup := mt (hasDuplicateX_eq_true_iff s).1 (not_not_intro hdistinct)
  simp only [exec, execInterp, interpChecks_eq_ok_iff_checksPass.2 hchecks, hmatch, if_neg hnodup, complete,
    BitVec.ofNat_toNat, BitVec.setWidth_eq]

/-! ### What two written shares have in common -/

theorem WritesShare.congr {s t : State} {m : Nat} {y z : Nat → Elem} (h : WritesShare s t m y)
    (heq : ∀ j, j < m → y j = z j) : WritesShare s t m z :=
  { h with ry := fun j hj => (h.ry j hj).trans (heq j hj) }

theorem WritesShare.code {s t : State} {m : Nat} {y : Nat → Elem} (h : WritesShare s t m y) : t.status.code = 0 := by
  rw [show t.status = _ from h.success]

theorem WritesShare.agree {s s' t t' : State} {m : Nat} {y y' : Nat → Elem} (h : WritesShare s t m y)
    (h' : WritesShare s' t' m y') (hdx : s'.dx = s.dx) :
    t'.rx = t.rx ∧ t'.rlen = t.rlen ∧ ∀ j, j < m → y' j = y j → t'.ry j = t.ry j :=
  ⟨h'.rx.trans (hdx.trans h.rx.symm), BitVec.eq_of_toNat_eq (h'.rlen.trans h.rlen.symm),
    fun j hj hy => (h'.ry j hj).trans (hy.trans (h.ry j hj).symm)⟩

/-! ### The field of the elements -/

theorem quotient_zero_divisor (a : Elem) : quotient a 0x00 = 0x00 := by rw [quotient, gdiv_zero_divisor]

theorem gmul_quotient (a : Elem) {b : Elem} (hb : b ≠ 0x00) : gmul (quotient a b) b = a := by
  obtain ⟨q, hq, hexact⟩ := exists_gdiv_exact a hb
  rw [quotient, hq, hexact]

/-- The elements with exclusive-or as sum and the table product as product are a field (40_field_arithmetic.md R107 to
R109). -/
abbrev elemField : Field Elem :=
  @Field.ofMinimalAxioms Elem ⟨fun a b => a ^^^ b⟩ ⟨gmul⟩ ⟨id⟩ ⟨quotient 0x01⟩ ⟨0x00⟩ ⟨0x01⟩
    BitVec.xor_assoc (fun _ => BitVec.zero_xor) (fun _ => BitVec.xor_self) gmul_assoc gmul_comm
    (fun a => (gmul_comm 0x01 a).trans (gmul_one_right a))
    (fun a ha => (gmul_comm a _).trans (gmul_quotient 0x01 ha)) (quotient_zero_divisor 0x01) gmul_xor_right
    ⟨0x00, 0x01, by decide⟩

/-- An injective map of the elements into a field that takes exclusive-or to the sum and the table product to the
product. Through it the field's laws are used beside the arithmetic modulo 256 that `BitVec` comes with. -/
structure FieldEmbedding {K : Type} [Field K] (φ : Elem → K) : Prop where
  injective : Function.Injective φ
  map_xor : ∀ a b, φ (a ^^^ b) = φ a + φ b
  map_gmul : ∀ a b, φ (gmul a b) = φ a * φ b
  map_one : φ 0x01 = 1

theorem exists_fieldEmbedding : ∃ (K : Type) (_ : Field K) (φ : Elem → K), FieldEmbedding φ :=
  letI := elemField
  ⟨Elem, elemField, id, Function.injective_id, fun _ _ => rfl, fun _ _ => rfl, rfl⟩

namespace FieldEmbedding

variable {K : Type} [Field K] {φ : Elem → K} (hφ : FieldEmbedding φ)

include hφ

theorem map_zero : φ 0x00 = 0 := by
  have h : φ 0x00 = φ 0x00 + φ 0x00 := hφ.map_xor 0x00 0x00
  exact add_eq_left.1 h.symm

/-- Subtraction is exclusive-or as well (40_field_arithmetic.md R101). -/
theorem map_xor_eq_sub (a b : Elem) : φ (a ^^^ b) = φ a - φ b := by
  rw [eq_sub_iff_add_eq, ← hφ.map_xor, BitVec.xor_assoc, BitVec.xor_self, BitVec.xor_zero]

theorem map_quotient (a b : Elem) : φ (quotient a b) = φ a / φ b := by
  rcases eq_or_ne b 0x00 with rfl | hb
  · rw [quotient_zero_divisor, hφ.map_zero, div_zero]
  · have hne : φ b ≠ 0 := fun h => hb (hφ.injective (h.trans hφ.map_zero.symm))
    rw [eq_div_iff hne, ← hφ.map_gmul, gmul_quotient a hb]

theorem map_foldl_xor {ι : Type} (f : ι → Elem) (l : List ι) :
    φ (l.foldl (fun acc i => acc ^^^ f i) 0x00) = (l.map fun i => φ (f i)).sum := by
  induction l using List.reverseRecOn with
  | nil => exact hφ.map_zero
  | append_singleton l i ih =>
    rw [List.foldl_concat, hφ.map_xor, ih, List.map_append, List.sum_append, List.map_singleton, List.sum_singleton]

theorem map_foldl_gmul {ι : Type} (f : ι → Elem) (l : List ι) :
    φ (l.foldl (fun acc i => gmul acc (f i)) 0x01) = (l.map fun i => φ (f i)).prod := by
  induction l using List.reverseRecOn with
  | nil => exact hφ.map_one
  | append_singleton l i ih =>
    rw [List.foldl_concat, hφ.map_gmul, ih, List.map_append, List.prod_append, List.map_singleton, List.prod_singleton]

/-- The closed form is the value at `DX` of the interpolation polynomial (43_interpolation.md R151). -/
theorem map_lagrangeSum (s : State) (n j : Nat) :
    φ (lagrangeSum s n j) = (Lagrange.interpolate (Finset.range n) (fun i => φ (s.sx i))
      fun i => φ (s.sy i j)).eval (φ s.dx) := by
  have hbasis : ∀ i, φ (lagrangeBasis s n i) =
      (Lagrange.basis (Finset.range n) (fun i => φ (s.sx i)) i).eval (φ s.dx) := fun i => by
    have herase : (Finset.range n).erase i = ((List.range n).filter fun t => decide (t ≠ i)).toFinset := by
      ext t
      simp [and_comm]
    rw [lagrangeBasis, hφ.map_foldl_gmul, Lagrange.basis, Polynomial.eval_prod, herase,
      List.prod_toFinset _ (List.nodup_range.filter _)]
    simp only [hφ.map_quotient, hφ.map_xor_eq_sub, Lagrange.basisDivisor, Polynomial.eval_mul, Polynomial.eval_sub,
      Polynomial.eval_C, Polynomial.eval_X, div_eq_inv_mul]
  rw [lagrangeSum, hφ.map_foldl_xor, Lagrange.interpolate_apply, Polynomial.eval_finsetSum, ← List.toFinset_range,
    List.sum_toFinset _ List.nodup_range]
  simp only [hφ.map_gmul, hbasis, Polynomial.eval_mul, Polynomial.eval_C, List.toFinset_range]

/-- `polyEval` evaluates a polynomial with as many coefficients as the list holds. -/
theorem exists_polynomial (coeffs : List Elem) :
    ∃ p : Polynomial K, p.degree < coeffs.length ∧ ∀ x, p.eval (φ x) = φ (polyEval coeffs x) := by
  induction coeffs with
  | nil => exact ⟨0, by simp, fun x => by rw [Polynomial.eval_zero]; exact hφ.map_zero.symm⟩
  | cons c coeffs ih =>
    obtain ⟨p, hdegree, heval⟩ := ih
    refine ⟨Polynomial.C (φ c) + Polynomial.X * p, ?_, fun x => ?_⟩
    · rw [Polynomial.degree_lt_iff_coeff_zero] at hdegree ⊢
      intro k hk
      cases k with
      | zero => exact absurd hk (Nat.not_succ_le_zero _)
      | succ k => simpa using hdegree k (Nat.le_of_succ_le_succ hk)
    · rw [Polynomial.eval_add, Polynomial.eval_mul, Polynomial.eval_C, Polynomial.eval_X, heval, ← hφ.map_gmul,
        gmul_eq_polyMul, ← hφ.map_xor]
      rfl

theorem injOn_sx {s : State} (hdistinct : DistinctXs s) :
    Set.InjOn (fun i => φ (s.sx i)) (Finset.range s.nsh.toNat) := by
  intro i hi k hk heq
  by_contra hne
  exact hdistinct i k (by simpa using hi) (by simpa using hk) hne (hφ.injective heq)

end FieldEmbedding

/-- At the x-coordinate of a used slot the closed form is that slot's y-value (43_interpolation.md R151). -/
theorem lagrangeSum_of_matching {s : State} {k : Nat} (hdistinct : DistinctXs s) (hk : k < s.nsh.toNat)
    (hx : s.sx k = s.dx) (j : Nat) : lagrangeSum s s.nsh.toNat j = s.sy k j := by
  obtain ⟨K, _, φ, hφ⟩ := exists_fieldEmbedding
  apply hφ.injective
  rw [hφ.map_lagrangeSum, ← hx]
  exact Lagrange.eval_interpolate_at_node _ (hφ.injOn_sx hdistinct) (Finset.mem_range.2 hk)

/-- The closed form of values on a polynomial with at most n coefficients is its value at `DX`. -/
theorem lagrangeSum_of_polyEval {s : State} {coeffs : List Elem} {j : Nat} (hdistinct : DistinctXs s)
    (hlen : coeffs.length ≤ s.nsh.toNat) (hy : ∀ i, i < s.nsh.toNat → s.sy i j = polyEval coeffs (s.sx i)) :
    lagrangeSum s s.nsh.toNat j = polyEval coeffs s.dx := by
  obtain ⟨K, _, φ, hφ⟩ := exists_fieldEmbedding
  obtain ⟨p, hdegree, heval⟩ := hφ.exists_polynomial coeffs
  have hbound : p.degree < (Finset.range s.nsh.toNat).card := by
    rw [Finset.card_range]
    exact hdegree.trans_le (by exact_mod_cast hlen)
  have hvalues : ∀ i ∈ Finset.range s.nsh.toNat, p.eval (φ (s.sx i)) = φ (s.sy i j) := fun i hi => by
    rw [heval, hy i (Finset.mem_range.1 hi)]
  apply hφ.injective
  rw [hφ.map_lagrangeSum, ← heval, ← Lagrange.eq_interpolate_of_eval_eq _ (hφ.injOn_sx hdistinct) hbound hvalues]

/-! ### The accumulated value is the closed form -/

/-- The used slots other than slot i, over which `lagrangeBasis` multiplies. -/
def otherSlots (n i : Nat) : List Nat := (List.range n).filter fun t => decide (t ≠ i)

theorem mem_otherSlots {n i t : Nat} : t ∈ otherSlots n i ↔ t < n ∧ t ≠ i := by
  simp [otherSlots]

theorem otherSlots_eq_erase (n i : Nat) : otherSlots n i = (List.range n).erase i :=
  (List.filter_congr fun t _ => by rw [bne, beq_eq_decide, decide_not]).trans (List.nodup_range.erase_eq_filter i).symm

theorem eraseIdx_slotXs (s : State) {n i : Nat} (hi : i < n) :
    (s.slotXs n).eraseIdx i = (otherSlots n i).map s.sx := by
  have h := List.nodup_range.erase_getElem i (by rwa [List.length_range])
  rw [List.getElem_range] at h
  rw [State.slotXs, List.eraseIdx_map, ← h, otherSlots_eq_erase]

/-- Phase 1b less the term of slot i: the terms of the other slots are left. -/
theorem logSum_slotXs_sub (s : State) {n i : Nat} (hi : i < n) :
    logSum s.dx (s.slotXs n) - logf (s.sx i ^^^ s.dx) =
      ((otherSlots n i).map fun t => (logf (s.sx t ^^^ s.dx) : Int)).sum := by
  have h := List.sum_map_erase (fun t => (logf (s.sx t ^^^ s.dx) : Int)) (List.mem_range.2 hi)
  rw [logSum, State.slotXs, List.map_map, otherSlots_eq_erase]
  exact sub_eq_of_eq_add' h.symm

/-- The exponent `b[i]` of phase 2 as two sums over the other slots (43_interpolation.md R155). -/
def basisLog (s : State) (n i : Nat) : Int :=
  ((otherSlots n i).map fun t => (logf (s.sx t ^^^ s.dx) : Int)).sum -
    ((otherSlots n i).map fun t => (logf (s.sx i ^^^ s.sx t) : Int)).sum

theorem basisLogs_slotXs (s : State) (n : Nat) : basisLogs s.dx (s.slotXs n) = (List.range n).map (basisLog s n) := by
  apply List.ext_getElem
  · simp [basisLogs, State.slotXs]
  · intro i hi _
    have hn : i < n := by simpa [basisLogs, State.slotXs] using hi
    have hget : (s.slotXs n)[i]'(by simpa [State.slotXs] using hn) = s.sx i := by simp [State.slotXs]
    simp only [basisLogs, List.getElem_map, List.getElem_zipIdx, Nat.zero_add, hget, eraseIdx_slotXs s hn,
      logSum_slotXs_sub s hn, List.map_map, List.getElem_range, basisLog,
      Function.comp_def]

/-- A difference of sums of exponents is a product of powers (41_log_exp_pow.md R123). -/
theorem gexp_sum_sub_sum (f g : Nat → Int) (l : List Nat) :
    gexp ((l.map f).sum - (l.map g).sum) = l.foldl (fun acc t => gmul acc (gexp (f t - g t))) 0x01 := by
  induction l using List.reverseRecOn with
  | nil => exact gexp_zero
  | append_singleton l t ih =>
    rw [List.foldl_concat, ← ih, gmul_gexp, List.map_append, List.map_append, List.sum_append, List.sum_append,
      add_sub_add_comm, List.map_singleton, List.map_singleton, List.sum_singleton, List.sum_singleton]

theorem quotient_of_nonzero {a b : Elem} (ha : a ≠ 0x00) (hb : b ≠ 0x00) :
    quotient a b = gexp (logf a - logf b) := by
  have h := gdiv_gexp (logf a) (logf b)
  rw [gexp_logf ha, gexp_logf hb] at h
  rw [quotient, h]

theorem xor_ne_zero {a b : Elem} (h : a ≠ b) : a ^^^ b ≠ 0x00 := mt BitVec.xor_eq_zero_iff.1 h

/-- Phase 2 computes the logarithms of the basis coefficients (43_interpolation.md R155). -/
theorem gexp_basisLog {s : State} {i : Nat} (hdistinct : DistinctXs s) (hdx : ∀ t, t < s.nsh.toNat → s.sx t ≠ s.dx)
    (hi : i < s.nsh.toNat) : gexp (basisLog s s.nsh.toNat i) = lagrangeBasis s s.nsh.toNat i := by
  rw [basisLog, gexp_sum_sub_sum]
  refine List.foldl_ext _ _ _ fun acc t ht => ?_
  obtain ⟨htn, hti⟩ := mem_otherSlots.1 ht
  rw [BitVec.xor_comm (s.sx t), quotient_of_nonzero (xor_ne_zero (hdx t htn).symm)
    (xor_ne_zero (hdistinct i t hi htn hti.symm))]

/-- One term of the accumulation (43_interpolation.md R156): a zero y-value adds 00. -/
theorem accumulate_term (acc y : Elem) (b : Int) :
    (if y = 0x00 then acc else acc ^^^ gexp (b + logf y)) = acc ^^^ gmul y (gexp b) := by
  split
  · next hy => 
    rw [hy, gmul_zero_left]
    exact BitVec.xor_zero.symm
  · next hy => rw [Int.add_comm, ← gmul_gexp, gexp_logf hy]

/-- Phase 3 computes the closed form when no used slot's x is `DX` (43_interpolation.md R151, R156). -/
theorem accumulate_eq_lagrangeSum {s : State} (hdistinct : DistinctXs s)
    (hdx : ∀ t, t < s.nsh.toNat → s.sx t ≠ s.dx) (j : Nat) :
    accumulate (basisLogs s.dx (s.slotXs s.nsh.toNat)) (s.positionYs s.nsh.toNat j) =
      lagrangeSum s s.nsh.toNat j := by
  rw [accumulate, basisLogs_slotXs, State.positionYs, List.zip_map', List.foldl_map]
  refine List.foldl_ext _ _ _ fun acc i hi => ?_
  simp only [accumulate_term, gexp_basisLog hdistinct hdx (List.mem_range.1 hi)]

/-! ### Two states with the same used shares -/

/-- The two states agree on all that decides INTERP's outcome (43_interpolation.md R160), and on the model's count of
free choices. -/
structure SameShares (s s' : State) : Prop where
  nsh : s'.nsh = s.nsh
  dx : s'.dx = s.dx
  cap : s'.cap = s.cap
  draws : s'.draws = s.draws
  slots : ∀ i, i < s.nsh.toNat → s'.sx i = s.sx i ∧ s'.slen i = s.slen i

namespace SameShares

variable {s s' : State} (h : SameShares s s')

include h

theorem shareCount : s'.shareCount = s.shareCount := congrArg BitVec.toNat h.nsh

theorem nMax : s'.nMax = s.nMax := by rw [State.nMax, State.nMax, h.cap]

theorem mMax : s'.mMax = s.mMax := by rw [State.mMax, State.mMax, h.cap]

theorem map_slots {α : Type} {f f' : Nat → α} (heq : ∀ i, i < s.nsh.toNat → f' i = f i) :
    (List.range s'.shareCount).map f' = (List.range s.shareCount).map f := by
  rw [h.shareCount]
  exact List.map_congr_left fun i hi => heq i (List.mem_range.1 hi)

theorem interpChecks_eq : interpChecks s' = interpChecks s := by
  have hlens : s'.slotLens s'.shareCount = s.slotLens s.shareCount := h.map_slots fun i hi => (h.slots i hi).2
  by_cases htwo : s.nsh.toNat < 2
  · rcases Nat.lt_or_ge s.nMax s.nsh.toNat with hmax | hmax
    · rw [interpChecks_of_nMax_lt hmax, interpChecks_of_nMax_lt (h.nsh ▸ h.nMax ▸ hmax)]
    · rw [interpChecks_of_lt_two hmax htwo, interpChecks_of_lt_two (h.nsh ▸ h.nMax ▸ hmax) (h.nsh ▸ htwo)]
  · have hfirst : s'.slen 0 = s.slen 0 := (h.slots 0 (by omega)).2
    rw [h.shareCount] at hlens
    simp only [interpChecks, hlens, hfirst, h.nMax, h.mMax, h.shareCount]

theorem matchingSlots_eq : matchingSlots s' s'.shareCount = matchingSlots s s.shareCount := by
  rw [h.shareCount]
  exact List.filter_congr fun i hi => by rw [(h.slots i (List.mem_range.1 hi)).1, h.dx]

theorem slotXs_eq : s'.slotXs s'.shareCount = s.slotXs s.shareCount := h.map_slots fun i hi => (h.slots i hi).1

theorem distinctXs_iff : DistinctXs s' ↔ DistinctXs s := by
  rw [← not_iff_not, ← hasDuplicateX_eq_true_iff, ← hasDuplicateX_eq_true_iff, h.slotXs_eq]

theorem freeSlot_eq (ks : List Nat) (k : Nat) : freeSlot s' ks k = freeSlot s ks k := by
  rw [freeSlot, freeSlot, h.draws]

/-- INTERP fails alike on both states, or writes shares of the same length on both, whose y-values agree wherever the
used shares do (43_interpolation.md R159). -/
theorem exec_interp_cases :
    (∃ f, exec .interp s = .next (s.raise f) ∧ exec .interp s' = .next (s'.raise f)) ∨
    ∃ t t' m y y', exec .interp s = .next t ∧ exec .interp s' = .next t' ∧ WritesShare s t m y ∧
      WritesShare s' t' m y' ∧ ∀ j, (∀ i, i < s.nsh.toNat → s'.sy i j = s.sy i j) → y' j = y j := by
  cases hchecks : interpChecks s with
  | error f => exact .inl ⟨f, exec_interp_of_error hchecks, exec_interp_of_error (h.interpChecks_eq.trans hchecks)⟩
  | ok m =>
    have hpass := interpChecks_eq_ok_iff_checksPass.1 hchecks
    have hpass' := interpChecks_eq_ok_iff_checksPass.1 (h.interpChecks_eq.trans hchecks)
    cases hmatch : matchingSlots s s.shareCount with
    | nil =>
      have hmatch' := h.matchingSlots_eq.trans hmatch
      by_cases hdistinct : DistinctXs s
      · obtain ⟨t, ht, hwrites⟩ := exec_interp_of_distinct hpass hmatch hdistinct
        obtain ⟨t', ht', hwrites'⟩ := exec_interp_of_distinct hpass' hmatch' (h.distinctXs_iff.2 hdistinct)
        refine .inr ⟨t, t', m, _, _, ht, ht', hwrites, hwrites', fun j hj => ?_⟩
        have hys : s'.positionYs s'.shareCount j = s.positionYs s.shareCount j := h.map_slots hj
        rw [h.dx, h.slotXs_eq, hys]
      · exact .inl ⟨_, exec_interp_of_duplicate hpass hmatch hdistinct,
          exec_interp_of_duplicate hpass' hmatch' (mt h.distinctXs_iff.1 hdistinct)⟩
    | cons k ks =>
      obtain ⟨t, ht, hwrites⟩ := exec_interp_of_matching hpass hmatch
      obtain ⟨t', ht', hwrites'⟩ := exec_interp_of_matching hpass' (h.matchingSlots_eq.trans hmatch)
      refine .inr ⟨t, t', m, _, _, ht, ht', hwrites, hwrites', fun j hj => ?_⟩
      rw [h.freeSlot_eq]
      exact hj _ (freeSlot_spec hmatch).1

end SameShares

/-! ### The statements about INTERP -/

/-- Settles O28: each check's failure is raised as it is found. -/
theorem interpChecksInOrder : Obligations.InterpChecksInOrder := by
  refine fun s => ⟨fun hmax => ?_, fun hmax hfew => ?_, fun hmax htwo hlong => ?_, fun hmax htwo hfit hne => ?_⟩
  · exact ⟨_, exec_interp_of_error (interpChecks_of_nMax_lt hmax), rfl⟩
  · exact ⟨_, exec_interp_of_error (interpChecks_of_lt_two hmax hfew), rfl⟩
  · exact ⟨_, exec_interp_of_error (interpChecks_of_mMax_lt hmax htwo hlong), rfl⟩
  · obtain ⟨i, -, hi, hlen⟩ := hne
    exact ⟨_, exec_interp_of_error (interpChecks_of_slen_ne hmax htwo hfit ⟨i, hi, hlen⟩), rfl⟩

/-- Settles O29: the slot returned is `freeSlot`, which is a matching one whatever the choice. -/
theorem interpShortCircuitReturnsAMatchingShare : Obligations.InterpShortCircuitReturnsAMatchingShare := by
  rintro s m hchecks ⟨i, hi, hx⟩
  obtain ⟨k, ks, hmatch⟩ := List.exists_cons_of_ne_nil
    (List.ne_nil_of_mem ((mem_matchingSlots s s.shareCount i).2 ⟨hi, hx⟩))
  obtain ⟨t, hexec, hwrites⟩ := exec_interp_of_matching hchecks hmatch
  obtain ⟨hlt, hslot⟩ := freeSlot_spec hmatch
  exact ⟨t, _, hexec, hlt, hslot, hwrites⟩

/-- Settles O30: the equal pair is found once no slot matches. -/
theorem interpDetectsDuplicates : Obligations.InterpDetectsDuplicates := by
  intro s m i k hchecks hdx hi hk hne heq
  exact ⟨_, exec_interp_of_duplicate hchecks ((matchingSlots_eq_nil s s.shareCount).2 hdx)
    fun hdistinct => hdistinct i k hi hk hne heq, rfl⟩

/-- Settles O31: the short-circuit returns the value of the closed form at a slot's own x, the accumulation computes
it elsewhere. -/
theorem interpIsTheLagrangeSum : Obligations.InterpIsTheLagrangeSum := by
  intro s m hchecks hdistinct
  cases hmatch : matchingSlots s s.shareCount with
  | nil =>
    have hdx := (matchingSlots_eq_nil s s.shareCount).1 hmatch
    obtain ⟨t, hexec, hwrites⟩ := exec_interp_of_distinct hchecks hmatch hdistinct
    exact ⟨t, hexec, hwrites.congr fun j _ => accumulate_eq_lagrangeSum hdistinct hdx j⟩
  | cons k ks =>
    obtain ⟨hlt, hx⟩ := freeSlot_spec hmatch
    obtain ⟨t, hexec, hwrites⟩ := exec_interp_of_matching hchecks hmatch
    exact ⟨t, hexec, hwrites.congr fun j _ => (lagrangeSum_of_matching hdistinct hlt hx j).symm⟩

/-- Settles O32: the closed form is the interpolation polynomial's value, and that polynomial is unique. -/
theorem interpEvaluatesThePolynomials : Obligations.InterpEvaluatesThePolynomials := by
  intro s m p hchecks hdistinct hp
  obtain ⟨t, hexec, hwrites⟩ := interpIsTheLagrangeSum s m hchecks hdistinct
  refine ⟨t, hexec, hwrites.congr fun j hj => ?_⟩
  obtain ⟨hlen, hy⟩ := hp j hj
  exact lagrangeSum_of_polyEval hdistinct hlen hy

/-- Settles O33: both share sets give the polynomials' values at the destination. -/
theorem interpExtrapolationIsConsistent : Obligations.InterpExtrapolationIsConsistent := by
  intro s s' m p hchecks hchecks' hdistinct hdistinct' hdx hp
  obtain ⟨t, hexec, hwrites⟩ := interpEvaluatesThePolynomials s m p hchecks hdistinct fun j hj =>
    have ⟨hlen, _, hy, _⟩ := hp j hj
    ⟨hlen, hy⟩
  obtain ⟨t', hexec', hwrites'⟩ := interpEvaluatesThePolynomials s' m p hchecks' hdistinct' fun j hj =>
    have ⟨_, hlen', _, hy'⟩ := hp j hj
    ⟨hlen', hy'⟩
  obtain ⟨hrx, hrlen, hry⟩ := hwrites.agree hwrites' hdx
  exact ⟨t, t', hexec, hexec', hwrites.code, hwrites'.code, hrx, hrlen, fun j hj => hry j hj (by rw [hdx])⟩

/-- Settles O34: the two states have the same used shares, on which INTERP takes the same case. -/
theorem interpReadsOnlyTheUsedShares : Obligations.InterpReadsOnlyTheUsedShares := by
  intro s s' t t' hnsh hdx hcap hdraws hslots hexec hexec'
  have same : SameShares s s' := ⟨hnsh, hdx, hcap, hdraws, hslots⟩
  rcases same.exec_interp_cases with ⟨f, hf, hf'⟩ | ⟨u, u', m, y, y', hu, hu', hwrites, hwrites', hy⟩
  · cases hexec.symm.trans hf
    cases hexec'.symm.trans hf'
    exact ⟨rfl, fun hzero => absurd hzero (failureCode_ne_zero f)⟩
  · cases hexec.symm.trans hu
    cases hexec'.symm.trans hu'
    obtain ⟨hrx, hrlen, hry⟩ := hwrites.agree hwrites' hdx
    exact ⟨hwrites'.code.trans hwrites.code.symm, fun _ =>
      ⟨hrx, hrlen, fun j hj hsy => hry j (hwrites.rlen ▸ hj) (hy j hsy)⟩⟩

end Sys2Proof.Machine
end

section
/-! PROOFS. Success and failure of an issued word (spec/60_exceptions.md): the cause of each failure, the two ways a
word can end, and who clears the sticky flag; then the statements about them. -/

namespace Sys2Proof.Machine

/-! ### The causes of the failures -/

/-- The cause of each failure (60_exceptions.md R200), with the priorities of INTERP's (R205): what the word decodes to
and what the state holds when the failure is raised. -/
def Raises (s : State) (w : Word) : Failure → Prop
  | .divideByZero => decode w = .ok .div ∧ s.b = 0x00
  | .logOfZero => decode w = .ok .log ∧ s.a = 0x00
  | .domainError => decode w = .ok .pow ∧ s.a = 0x00 ∧ s.e.toInt ≤ 0
  | .tooFewShares => decode w = .ok .interp ∧ s.nsh.toNat ≤ s.nMax ∧ s.nsh.toNat < 2
  | .mismatchedShareWidth => decode w = .ok .interp ∧ 2 ≤ s.nsh.toNat ∧ s.nsh.toNat ≤ s.nMax ∧
      (∀ k, k < s.nsh.toNat → (s.slen k).toNat ≤ s.mMax) ∧ ∃ k, k < s.nsh.toNat ∧ s.slen k ≠ s.slen 0
  | .duplicateXValue => decode w = .ok .interp ∧ (∃ m, ChecksPass s m) ∧
      (∀ k, k < s.nsh.toNat → s.sx k ≠ s.dx) ∧ ¬ DistinctXs s
  | .illegalCommand => ∀ i, decode w ≠ .ok i
  | .capacityExceeded => decode w = .ok .interp ∧ (s.nMax < s.nsh.toNat ∨
      2 ≤ s.nsh.toNat ∧ ∃ k, k < s.nsh.toNat ∧ s.mMax < (s.slen k).toNat)

/-- A failure leaves the cause of every failure as it was: no cause lies in `STATUS`. -/
theorem Raises.after_raise {s : State} {w : Word} {f : Failure} (h : Raises s w f) (g : Failure) :
    Raises (s.raise g) w f := by
  cases f with
  | duplicateXValue =>
    obtain ⟨hw, ⟨m, hchecks⟩, hdx, hdup⟩ := h
    exact ⟨hw, ⟨m, { hchecks with }⟩, hdx, hdup⟩
  | _ => exact h

/-- A word whose failure has its cause ends in that failure. -/
theorem issue_of_raises {s : State} {w : Word} {f : Failure} (h : Raises s w f) : issue s w = .next (s.raise f) := by
  cases f with
  | divideByZero =>
    obtain ⟨hw, hb⟩ := h
    rw [issue_of_decode hw, exec_div, hb, gdiv_zero_divisor, completeElem, failed]
  | logOfZero =>
    obtain ⟨hw, ha⟩ := h
    exact (issue_of_decode hw).trans (exec_log_of_zero ha)
  | domainError =>
    obtain ⟨hw, ha, he⟩ := h
    exact (issue_of_decode hw).trans (exec_pow_error (ha ▸ gpow_zero_base_of_nonpos he))
  | tooFewShares =>
    obtain ⟨hw, hmax, hfew⟩ := h
    exact (issue_of_decode hw).trans (exec_interp_of_error (interpChecks_of_lt_two hmax hfew))
  | mismatchedShareWidth =>
    obtain ⟨hw, htwo, hmax, hfit, hne⟩ := h
    exact (issue_of_decode hw).trans (exec_interp_of_error (interpChecks_of_slen_ne hmax htwo hfit hne))
  | duplicateXValue =>
    obtain ⟨hw, ⟨m, hchecks⟩, hdx, hdup⟩ := h
    have hmatch := (matchingSlots_eq_nil s s.shareCount).2 hdx
    exact (issue_of_decode hw).trans (exec_interp_of_duplicate hchecks hmatch hdup)
  | illegalCommand => exact issue_of_illegal h
  | capacityExceeded =>
    obtain ⟨hw, hcause⟩ := h
    refine (issue_of_decode hw).trans (exec_interp_of_error ?_)
    rcases Nat.lt_or_ge s.nMax s.nsh.toNat with hmany | hmax
    · exact interpChecks_of_nMax_lt hmany
    · obtain ⟨htwo, hlong⟩ := hcause.resolve_left (Nat.not_lt.2 hmax)
      exact interpChecks_of_mMax_lt hmax htwo hlong

/-! ### Success -/

theorem Succeeded.code {s t : State} (h : Succeeded s t) : t.status.code = 0 := congrArg Status.code h

theorem Succeeded.estky {s t : State} (h : Succeeded s t) : t.status.estky = s.status.estky := by
  rw [show t.status = _ from h]

/-- An INTERP whose checks pass, and which finds a matching slot or no duplicate, succeeds (43_interpolation.md R153,
R155). -/
theorem exec_interp_succeeds {s t : State} {m : Nat} (hchecks : ChecksPass s m)
    (hdup : (∀ k, k < s.nsh.toNat → s.sx k ≠ s.dx) → DistinctXs s) (h : exec .interp s = .next t) :
    Succeeded s t := by
  cases hmatch : matchingSlots s s.shareCount with
  | nil =>
    have hdistinct := hdup ((matchingSlots_eq_nil s s.shareCount).1 hmatch)
    obtain ⟨u, hu, hwrites⟩ := exec_interp_of_distinct hchecks hmatch hdistinct
    cases h.symm.trans hu
    exact hwrites.success
  | cons k ks =>
    obtain ⟨u, hu, hwrites⟩ := exec_interp_of_matching hchecks hmatch
    cases h.symm.trans hu
    exact hwrites.success

/-- An INTERP with no cause to fail in a check passes them all. -/
theorem checksPass_of_not_raises {s : State} {w : Word} (hw : decode w = .ok .interp) (hno : ∀ f, ¬ Raises s w f) :
    ChecksPass s (s.slen 0).toNat := by
  have hmax : s.nsh.toNat ≤ s.nMax := Nat.not_lt.1 fun h => hno .capacityExceeded ⟨hw, .inl h⟩
  have htwo : 2 ≤ s.nsh.toNat := Nat.not_lt.1 fun h => hno .tooFewShares ⟨hw, hmax, h⟩
  have hfit : ∀ k, k < s.nsh.toNat → (s.slen k).toNat ≤ s.mMax := fun k hk =>
    Nat.not_lt.1 fun h => hno .capacityExceeded ⟨hw, .inr ⟨htwo, k, hk, h⟩⟩
  refine ⟨hmax, htwo, hfit, fun k hk => congrArg BitVec.toNat ?_⟩
  by_contra hne
  exact hno .mismatchedShareWidth ⟨hw, htwo, hmax, hfit, k, hk, hne⟩

/-- A word with no cause for any failure succeeds. -/
theorem succeeded_of_not_raises {s t : State} {w : Word} (hno : ∀ f, ¬ Raises s w f) (h : issue s w = .next t) :
    Succeeded s t := by
  obtain ⟨i, hw⟩ : ∃ i, decode w = .ok i := by
    by_contra hillegal
    exact hno .illegalCommand (not_exists.1 hillegal)
  rw [issue_of_decode hw] at h
  cases i with
  | div =>
    obtain ⟨q, hq, -⟩ := exists_gdiv_exact s.a fun hb => hno .divideByZero ⟨hw, hb⟩
    rw [exec_div, hq] at h
    cases h
    rfl
  | log =>
    cases (exec_log_of_nonzero fun ha => hno .logOfZero ⟨hw, ha⟩).symm.trans h
    rfl
  | pow =>
    have hpow : ∃ v, gpow s.a s.e.toInt = .ok v := by
      by_cases ha : s.a = 0x00
      · exact ⟨_, ha ▸ gpow_zero_base_of_pos (Int.not_le.1 fun he => hno .domainError ⟨hw, ha, he⟩)⟩
      · exact ⟨_, gpow_of_nonzero ha _⟩
    obtain ⟨v, hv⟩ := hpow
    cases (exec_pow_ok hv).symm.trans h
    rfl
  | interp =>
    have hchecks := checksPass_of_not_raises hw hno
    refine exec_interp_succeeds hchecks (fun hdx => ?_) h
    by_contra hdup
    exact hno .duplicateXValue ⟨hw, ⟨_, hchecks⟩, hdx, hdup⟩
  | _ => cases h; rfl

/-! ### The outcome of an issued word -/

/-- An issued word ends in a failure that has its cause, or succeeds. -/
theorem issue_raises_or_succeeds {s t : State} {w : Word} (h : issue s w = .next t) :
    (∃ f, Raises s w f ∧ t = s.raise f) ∨ Succeeded s t := by
  by_cases hraises : ∃ f, Raises s w f
  · obtain ⟨f, hf⟩ := hraises
    cases (issue_of_raises hf).symm.trans h
    exact .inl ⟨f, hf, rfl⟩
  · exact .inr (succeeded_of_not_raises (not_exists.1 hraises) h)

theorem failureCode_injective : Function.Injective failureCode := by
  intro f g
  cases f <;> cases g <;> decide

/-- The code after a word names a failure iff that failure has its cause. -/
theorem code_eq_failureCode_iff {s t : State} {w : Word} (h : issue s w = .next t) (f : Failure) :
    t.status.code = failureCode f ↔ Raises s w f := by
  constructor
  · intro hcode
    rcases issue_raises_or_succeeds h with ⟨g, hg, rfl⟩ | hsuccess
    · exact failureCode_injective hcode ▸ hg
    · exact absurd (hcode.symm.trans hsuccess.code) (failureCode_ne_zero f)
  · intro hf
    cases (issue_of_raises hf).symm.trans h
    rfl

/-! ### The sticky flag -/

theorem clearSticky_of_set {w : Word} (s : State) (h : w.getLsbD 4 = true) :
    s.clearSticky w = s.setStatus ⟨s.status.code, false⟩ := by
  rw [State.clearSticky, h, Bool.not_true, Bool.and_false]

theorem clearSticky_of_clear {w : Word} (s : State) (h : w.getLsbD 4 = false) : s.clearSticky w = s := by
  rw [State.clearSticky, h, Bool.not_false, Bool.and_true]
  rfl

/-- A step that writes `STATUS` writes 1 to clear, whatever the parameters are (60_exceptions.md R206). -/
theorem step_of_status_write {s : State} {w : Word} (h : nextEvent s = some (.write (s.base + 0x0004) 4 w)) :
    step s = .next (s.advanceHost.clearSticky w) :=
  step_of_register_write (loc := .status) rfl h

/-- No command clears the sticky flag (60_exceptions.md R206). -/
theorem issue_keeps_sticky {s t : State} {w : Word} (h : issue s w = .next t) (hs : s.status.estky = true) :
    t.status.estky = true := by
  rcases issue_raises_or_succeeds h with ⟨f, -, rfl⟩ | hsuccess
  · rfl
  · exact hsuccess.estky.trans hs

/-- A host write clears the sticky flag only at `STATUS`, with bit 4 set. -/
theorem writeLocation_clears_sticky {s t : State} {w : Word} {loc : Location} (h : writeLocation s w loc = .next t)
    (hs : s.status.estky = true) (ht : t.status.estky = false) : loc = .status ∧ w.getLsbD 4 = true := by
  cases loc with
  | cmd => exact absurd (issue_keeps_sticky h hs) (by simp [ht])
  | status =>
    cases h
    exact ⟨rfl, by simpa [hs] using ht⟩
  | _ => cases h; exact absurd (hs.symm.trans ht) (by decide)

/-! ### The statements about success and failure -/

/-- Settles O24: a word that ends with a code other than 0 has raised a failure. -/
theorem failureChangesOnlyStatus : Obligations.FailureChangesOnlyStatus := by
  intro s t w h hcode
  rcases issue_raises_or_succeeds h with ⟨f, -, rfl⟩ | hsuccess
  · rfl
  · exact absurd hsuccess.code hcode

/-- Settles O25: a failure sets the flag and no failure has code 0; success keeps the flag. -/
theorem successKeepsStickyFlag : Obligations.SuccessKeepsStickyFlag := by
  intro s t w h
  rcases issue_raises_or_succeeds h with ⟨f, -, rfl⟩ | hsuccess
  · exact ⟨fun hzero => absurd hzero (failureCode_ne_zero f), fun _ => rfl⟩
  · exact ⟨fun _ => hsuccess.estky, fun hcode => absurd hsuccess.code hcode⟩

/-- Settles O27: each code is reported iff its failure has its cause; with `N_MAX` at least 2 too few shares are never
too many. -/
theorem failureCodesMatchCauses : Obligations.FailureCodesMatchCauses := by
  intro s t w ⟨hmax, _⟩ h
  have bounded : t.status.code.toNat ≤ 8 := by
    rcases issue_raises_or_succeeds h with ⟨f, -, rfl⟩ | hsuccess
    · exact failureCode_le f
    · simp [hsuccess.code]
  have fewShares : Raises s w .tooFewShares ↔ decode w = .ok .interp ∧ s.nsh.toNat < 2 :=
    and_congr_right fun _ => and_iff_right_of_imp fun hfew => hfew.le.trans hmax
  have causes := code_eq_failureCode_iff h
  exact ⟨bounded, causes .divideByZero, causes .logOfZero, causes .domainError, (causes .tooFewShares).trans fewShares,
    causes .mismatchedShareWidth, causes .duplicateXValue, causes .illegalCommand, causes .capacityExceeded⟩

/-- Settles O43: the write to `STATUS` by its two cases, a failure's cause outlasts the failure, and no other event
clears the flag. -/
theorem stickyFlagIsClearedOnlyByHostOrReset : Obligations.StickyFlagIsClearedOnlyByHostOrReset := by
  refine ⟨fun s w hevent => ⟨fun hbit => ?_, fun hbit => ?_⟩, fun s t w h hcode => ?_, fun s t h hs ht => ?_⟩
  · rw [step_of_status_write hevent, clearSticky_of_set _ hbit]
    rfl
  · rw [step_of_status_write hevent, clearSticky_of_clear _ hbit]
    rfl
  · rcases issue_raises_or_succeeds h with ⟨f, hf, rfl⟩ | hsuccess
    · exact issue_of_raises (hf.after_raise f)
    · exact absurd hsuccess.code hcode
  · rcases step_cases h with ⟨-, rfl⟩ | ⟨hn, -⟩ | ⟨addr, size, loc, -, -, rfl⟩ | ⟨addr, size, w, loc, hn, hb, hw⟩
    · exact absurd (hs.symm.trans ht) (by decide)
    · exact .inl hn
    · exact absurd (hs.symm.trans ht) (by decide)
    · obtain ⟨rfl, hbit⟩ := writeLocation_clears_sticky hw hs ht
      obtain ⟨-, rfl, rfl⟩ := busTarget_sound hb
      exact .inr ⟨w, hbit, hn⟩

end Sys2Proof.Machine
end

section
/-! PROOFS. Reset and hazards (spec/70_reset_and_hazards.md): every command word completes, and the code it leaves
is one of the nine outcomes. -/

namespace Sys2Proof.Machine

/-- The code after an issued word is 0 or a failure's, so at most 8 (60_exceptions.md R200). -/
theorem issue_code_le {s t : State} {w : Word} (h : issue s w = .next t) : t.status.code.toNat ≤ 8 := by
  rcases issue_raises_or_succeeds h with ⟨f, -, rfl⟩ | hsuccess
  · exact failureCode_le f
  · simp [hsuccess.code]

/-- Settles O26: no word is refused or faults, and the code it leaves is bounded. -/
theorem everyCommandWordCompletes : Obligations.EveryCommandWordCompletes := by
  intro s w
  obtain ⟨t, h⟩ := issue_completes s w
  exact ⟨t, h, issue_code_le h⟩

end Sys2Proof.Machine
end
